-- ==== Sys2Proof/Word.lean ====
section
/-!
DEFINITION. Words, bytes, and the two small containers of this machine: four of a thing (tasks, ports, DAC
channels) and eight of a thing (cogs, WIDE registers, locks). Both are plain structures, so that the kernel
evaluates a read or an update of one element at once.
-/

set_option Elab.async false

namespace Sys2Proof

/-- A register, an AUX long, a hub long, an instruction: 32 bits (R36, R170). -/
abbrev Word := BitVec 32

/-- One byte of hub memory (R31). -/
abbrev Byte := BitVec 8

/-- An instruction address, counted in longs (R47). -/
abbrev Addr := BitVec 16

/-- A hub byte address (R127). -/
abbrev HubAddr := BitVec 18

/-- A register address (R36). -/
abbrev RegAddr := BitVec 9

/-- Four of a kind. -/
structure Quad (α : Type) where
  e0 : α
  e1 : α
  e2 : α
  e3 : α
deriving DecidableEq, Repr

/-- Eight of a kind. -/
structure Octet (α : Type) where
  e0 : α
  e1 : α
  e2 : α
  e3 : α
  e4 : α
  e5 : α
  e6 : α
  e7 : α
deriving DecidableEq, Repr

/-- Four copies of one value. -/
def Quad.all {α : Type} (v : α) : Quad α := ⟨v, v, v, v⟩

/-- Element `i` of four. -/
def Quad.get {α : Type} (q : Quad α) (i : Fin 4) : α :=
  match i with
  | 0 => q.e0
  | 1 => q.e1
  | 2 => q.e2
  | 3 => q.e3

/-- The four with element `i` replaced. -/
def Quad.set {α : Type} (q : Quad α) (i : Fin 4) (v : α) : Quad α :=
  match i with
  | 0 => { q with e0 := v }
  | 1 => { q with e1 := v }
  | 2 => { q with e2 := v }
  | 3 => { q with e3 := v }

/-- The four, each changed by `f`, which also sees its number. -/
def Quad.mapIdx {α β : Type} (q : Quad α) (f : Fin 4 → α → β) : Quad β :=
  ⟨f 0 q.e0, f 1 q.e1, f 2 q.e2, f 3 q.e3⟩

/-- Eight copies of one value. -/
def Octet.all {α : Type} (v : α) : Octet α := ⟨v, v, v, v, v, v, v, v⟩

/-- Element `i` of eight. -/
def Octet.get {α : Type} (q : Octet α) (i : Fin 8) : α :=
  match i with
  | 0 => q.e0
  | 1 => q.e1
  | 2 => q.e2
  | 3 => q.e3
  | 4 => q.e4
  | 5 => q.e5
  | 6 => q.e6
  | 7 => q.e7

/-- The eight with element `i` replaced. -/
def Octet.set {α : Type} (q : Octet α) (i : Fin 8) (v : α) : Octet α :=
  match i with
  | 0 => { q with e0 := v }
  | 1 => { q with e1 := v }
  | 2 => { q with e2 := v }
  | 3 => { q with e3 := v }
  | 4 => { q with e4 := v }
  | 5 => { q with e5 := v }
  | 6 => { q with e6 := v }
  | 7 => { q with e7 := v }

/-- The eight, each changed by `f`, which also sees its number. -/
def Octet.mapIdx {α β : Type} (q : Octet α) (f : Fin 8 → α → β) : Octet β :=
  ⟨f 0 q.e0, f 1 q.e1, f 2 q.e2, f 3 q.e3, f 4 q.e4, f 5 q.e5, f 6 q.e6, f 7 q.e7⟩

/-- The eight as a list, element 0 first. -/
def Octet.toList {α : Type} (q : Octet α) : List α :=
  [q.e0, q.e1, q.e2, q.e3, q.e4, q.e5, q.e6, q.e7]

@[simp] theorem Quad.get_set_same {α : Type} (q : Quad α) (i : Fin 4) (v : α) :
    (q.set i v).get i = v := by
  fin_cases i <;> rfl

@[simp] theorem Quad.get_set_ne {α : Type} (q : Quad α) {i j : Fin 4} (v : α) (h : j ≠ i) :
    (q.set i v).get j = q.get j := by
  rcases i with ⟨_ | _ | _ | _ | i, hi⟩ <;> rcases j with ⟨_ | _ | _ | _ | j, hj⟩ <;>
    first | rfl | exact absurd rfl h | omega

@[simp] theorem Octet.get_set_same {α : Type} (q : Octet α) (i : Fin 8) (v : α) :
    (q.set i v).get i = v := by
  fin_cases i <;> rfl

@[simp] theorem Octet.get_set_ne {α : Type} (q : Octet α) {i j : Fin 8} (v : α) (h : j ≠ i) :
    (q.set i v).get j = q.get j := by
  rcases i with ⟨_ | _ | _ | _ | _ | _ | _ | _ | i, hi⟩ <;>
    rcases j with ⟨_ | _ | _ | _ | _ | _ | _ | _ | j, hj⟩ <;>
    first | rfl | exact absurd rfl h | omega

@[simp] theorem Quad.set_set {α : Type} (q : Quad α) (i : Fin 4) (v w : α) :
    (q.set i v).set i w = q.set i w := by
  fin_cases i <;> rfl

@[simp] theorem Octet.set_set {α : Type} (q : Octet α) (i : Fin 8) (v w : α) :
    (q.set i v).set i w = q.set i w := by
  fin_cases i <;> rfl

@[simp] theorem Quad.set_get {α : Type} (q : Quad α) (i : Fin 4) : q.set i (q.get i) = q := by
  fin_cases i <;> rfl

@[simp] theorem Octet.set_get {α : Type} (q : Octet α) (i : Fin 8) : q.set i (q.get i) = q := by
  fin_cases i <;> rfl

end Sys2Proof
end

