-- ==== Sys2Proof/Syntax.lean ====
section
/-!
DEFINITION. The instructions: one constructor for each row of spec/opcode_table.json, in the table's order, over one
structure of operand fields per format (R171, R172). Rows of one mnemonic with different layouts have different
constructors (`jmpAbs`, `jmpRel`, `jmpReg`). The last thirteen are the rows that are second names of words of
other rows (R198, R202; log 46).
-/

set_option Elab.async false

namespace Sys2Proof

/-- DUAL: both flag controls, I, condition, D, S. -/
structure Dual where
  wz : Bool
  wc : Bool
  i : Bool
  cond : BitVec 4
  d : RegAddr
  s : RegAddr
deriving DecidableEq, Repr

/-- DUAL-Zs: the Z control only. -/
structure DualZ where
  wz : Bool
  i : Bool
  cond : BitVec 4
  d : RegAddr
  s : RegAddr
deriving DecidableEq, Repr

/-- DUAL-sC: the C control only. -/
structure DualC where
  wc : Bool
  i : Bool
  cond : BitVec 4
  d : RegAddr
  s : RegAddr
deriving DecidableEq, Repr

/-- DUAL-sL: no flag control, D may be an immediate. -/
structure DualL where
  l : Bool
  i : Bool
  cond : BitVec 4
  d : RegAddr
  s : RegAddr
deriving DecidableEq, Repr

/-- DUAL-ss: no flag control. -/
structure DualP where
  i : Bool
  cond : BitVec 4
  d : RegAddr
  s : RegAddr
deriving DecidableEq, Repr

/-- The S side of the immediate form of `WAITVID`. -/
structure DualS where
  i : Bool
  cond : BitVec 4
  s : RegAddr
deriving DecidableEq, Repr

/-- `LOCINST`: condition, D, relative S. -/
structure Loc where
  cond : BitVec 4
  d : RegAddr
  s : RegAddr
deriving DecidableEq, Repr

/-- SINGLE with both flag controls and a D register. -/
structure SingleZC where
  wz : Bool
  wc : Bool
  cond : BitVec 4
  d : RegAddr
deriving DecidableEq, Repr

/-- SINGLE without flag controls, D may be an immediate. -/
structure SingleL where
  l : Bool
  cond : BitVec 4
  d : RegAddr
deriving DecidableEq, Repr

/-- SINGLE with the C control, D may be an immediate. -/
structure SingleCL where
  wc : Bool
  l : Bool
  cond : BitVec 4
  d : RegAddr
deriving DecidableEq, Repr

/-- SINGLE with both flag controls, D may be an immediate. -/
structure SingleZCL where
  wz : Bool
  wc : Bool
  l : Bool
  cond : BitVec 4
  d : RegAddr
deriving DecidableEq, Repr

/-- SINGLE0 without flag controls. -/
structure Zero0 where
  cond : BitVec 4
deriving DecidableEq, Repr

/-- SINGLE0 with both flag controls. -/
structure Zero0ZC where
  wz : Bool
  wc : Bool
  cond : BitVec 4
deriving DecidableEq, Repr

/-- BIG16: condition and a 16-bit constant. -/
structure Big where
  cond : BitVec 4
  n : BitVec 16
deriving DecidableEq, Repr

/-- IND: two nine-bit fields, no condition. -/
structure Ind where
  d : RegAddr
  s : RegAddr
deriving DecidableEq, Repr

/-- One constructor per row of the opcode table. -/
inductive Instr where
  /-- `RDBYTE D,S/PTRA/PTRB` (R244). -/
  | rdbyte (f : Dual)
  /-- `RDBYTEC D,S/PTRA/PTRB` (R245). -/
  | rdbytec (f : Dual)
  /-- `RDWORD D,S/PTRA/PTRB` (R246). -/
  | rdword (f : Dual)
  /-- `RDWORDC D,S/PTRA/PTRB` (R247). -/
  | rdwordc (f : Dual)
  /-- `RDLONG D,S/PTRA/PTRB` (R248). -/
  | rdlong (f : Dual)
  /-- `RDLONGC D,S/PTRA/PTRB` (R249). -/
  | rdlongc (f : Dual)
  /-- `RDAUX D,S/#0..$FF/PTRX/PTRY` (R341). -/
  | rdaux (f : Dual)
  /-- `RDAUXR D,S/#0..$FF/PTRX/PTRY` (R342). -/
  | rdauxr (f : Dual)
  /-- `ISOB D,S/#` (R557). -/
  | isob (f : Dual)
  /-- `NOTB D,S/#` (R558). -/
  | notb (f : Dual)
  /-- `CLRB D,S/#` (R559). -/
  | clrb (f : Dual)
  /-- `SETB D,S/#` (R560). -/
  | setb (f : Dual)
  /-- `SETBC D,S/#` (R561). -/
  | setbc (f : Dual)
  /-- `SETBNC D,S/#` (R562). -/
  | setbnc (f : Dual)
  /-- `SETBZ D,S/#` (R563). -/
  | setbz (f : Dual)
  /-- `SETBNZ D,S/#` (R564). -/
  | setbnz (f : Dual)
  /-- `ANDN D,S/#` (R565). -/
  | andn (f : Dual)
  /-- `AND D,S/#` (R566). -/
  | and (f : Dual)
  /-- `OR D,S/#` (R567). -/
  | or (f : Dual)
  /-- `XOR D,S/#` (R568). -/
  | xor (f : Dual)
  /-- `MUXC D,S/#` (R569). -/
  | muxc (f : Dual)
  /-- `MUXNC D,S/#` (R570). -/
  | muxnc (f : Dual)
  /-- `MUXZ D,S/#` (R571). -/
  | muxz (f : Dual)
  /-- `MUXNZ D,S/#` (R572). -/
  | muxnz (f : Dual)
  /-- `ROR D,S/#` (R573). -/
  | ror (f : Dual)
  /-- `ROL D,S/#` (R574). -/
  | rol (f : Dual)
  /-- `SHR D,S/#` (R575). -/
  | shr (f : Dual)
  /-- `SHL D,S/#` (R576). -/
  | shl (f : Dual)
  /-- `RCR D,S/#` (R577). -/
  | rcr (f : Dual)
  /-- `RCL D,S/#` (R578). -/
  | rcl (f : Dual)
  /-- `SAR D,S/#` (R579). -/
  | sar (f : Dual)
  /-- `REV D,S/#` (R580). -/
  | rev (f : Dual)
  /-- `MOV D,S/#` (R581). -/
  | mov (f : Dual)
  /-- `NOT D,S/#` (R582). -/
  | not (f : Dual)
  /-- `ABS D,S/#` (R583). -/
  | abs (f : Dual)
  /-- `NEG D,S/#` (R584). -/
  | neg (f : Dual)
  /-- `NEGC D,S/#` (R585). -/
  | negc (f : Dual)
  /-- `NEGNC D,S/#` (R586). -/
  | negnc (f : Dual)
  /-- `NEGZ D,S/#` (R587). -/
  | negz (f : Dual)
  /-- `NEGNZ D,S/#` (R588). -/
  | negnz (f : Dual)
  /-- `ADD D,S/#` (R589). -/
  | add (f : Dual)
  /-- `SUB D,S/#` (R590). -/
  | sub (f : Dual)
  /-- `ADDX D,S/#` (R591). -/
  | addx (f : Dual)
  /-- `SUBX D,S/#` (R592). -/
  | subx (f : Dual)
  /-- `ADDS D,S/#` (R593). -/
  | adds (f : Dual)
  /-- `SUBS D,S/#` (R594). -/
  | subs (f : Dual)
  /-- `ADDSX D,S/#` (R595). -/
  | addsx (f : Dual)
  /-- `SUBSX D,S/#` (R596). -/
  | subsx (f : Dual)
  /-- `SUMC D,S/#` (R597). -/
  | sumc (f : Dual)
  /-- `SUMNC D,S/#` (R598). -/
  | sumnc (f : Dual)
  /-- `SUMZ D,S/#` (R599). -/
  | sumz (f : Dual)
  /-- `SUMNZ D,S/#` (R600). -/
  | sumnz (f : Dual)
  /-- `MIN D,S/#` (R601). -/
  | min (f : Dual)
  /-- `MAX D,S/#` (R602). -/
  | max (f : Dual)
  /-- `MINS D,S/#` (R603). -/
  | mins (f : Dual)
  /-- `MAXS D,S/#` (R604). -/
  | maxs (f : Dual)
  /-- `ADDABS D,S/#` (R605). -/
  | addabs (f : Dual)
  /-- `SUBABS D,S/#` (R606). -/
  | subabs (f : Dual)
  /-- `INCMOD D,S/#` (R607). -/
  | incmod (f : Dual)
  /-- `DECMOD D,S/#` (R608). -/
  | decmod (f : Dual)
  /-- `CMPSUB D,S/#` (R609). -/
  | cmpsub (f : Dual)
  /-- `SUBR D,S/#` (R610). -/
  | subr (f : Dual)
  /-- `MUL D,S/#` (R611). -/
  | mul (f : Dual)
  /-- `SCL D,S/#` (R612). -/
  | scl (f : Dual)
  /-- `DECOD2 D,S/#` (R613). -/
  | decod2 (f : Dual)
  /-- `DECOD3 D,S/#` (R614). -/
  | decod3 (f : Dual)
  /-- `DECOD4 D,S/#` (R615). -/
  | decod4 (f : Dual)
  /-- `DECOD5 D,S/#` (R616). -/
  | decod5 (f : Dual)
  /-- `ENCOD D,S/#` (R617). -/
  | encod (f : DualZ)
  /-- `BLMASK D,S/#` (R618). -/
  | blmask (f : DualZ)
  /-- `ONECNT D,S/#` (R619). -/
  | onecnt (f : DualZ)
  /-- `ZERCNT D,S/#` (R620). -/
  | zercnt (f : DualZ)
  /-- `INCPAT D,S/#` (R621). -/
  | incpat (f : DualC)
  /-- `DECPAT D,S/#` (R622). -/
  | decpat (f : DualC)
  /-- `SPLITB D,S/#` (R623). -/
  | splitb (f : DualP)
  /-- `MERGEB D,S/#` (R624). -/
  | mergeb (f : DualP)
  /-- `SPLITW D,S/#` (R625). -/
  | splitw (f : DualP)
  /-- `MERGEW D,S/#` (R626). -/
  | mergew (f : DualP)
  /-- `GETNIB D,S/#,#0..7` (R627). -/
  | getnib (n : BitVec 3) (f : DualP)
  /-- `SETNIB D,S/#,#0..7` (R628). -/
  | setnib (n : BitVec 3) (f : DualP)
  /-- `GETWORD D,S/#,#0..1` (R629). -/
  | getword (n : BitVec 1) (f : DualP)
  /-- `SETWORD D,S/#,#0..1` (R630). -/
  | setword (n : BitVec 1) (f : DualP)
  /-- `SETWRDS D,S/#` (R631). -/
  | setwrds (f : DualP)
  /-- `ROLNIB D,S/#` (R632). -/
  | rolnib (f : DualP)
  /-- `ROLBYTE D,S/#` (R633). -/
  | rolbyte (f : DualP)
  /-- `ROLWORD D,S/#` (R634). -/
  | rolword (f : DualP)
  /-- `SETS D,S/#` (R635). -/
  | sets (f : DualP)
  /-- `SETD D,S/#` (R636). -/
  | setd (f : DualP)
  /-- `SETX D,S/#` (R637). -/
  | setx (f : DualP)
  /-- `SETI D,S/#` (R638). -/
  | seti (f : DualP)
  /-- `COGNEW D,S/#` (R291). -/
  | cognew (f : DualC)
  /-- `WAITCNT D,S/#` (R418). -/
  | waitcnt (f : DualP)
  /-- `WAITCNT D,S/# WC` (R419). -/
  | waitcntWc (f : DualP)
  /-- `GETBYTE D,S/#,#0..3` (R639). -/
  | getbyte (n : BitVec 2) (f : DualP)
  /-- `SETBYTE D,S/#,#0..3` (R640). -/
  | setbyte (n : BitVec 2) (f : DualP)
  /-- `SETBYTS D,S/#` (R641). -/
  | setbyts (f : DualP)
  /-- `MOVBYTS D,S/#` (R642). -/
  | movbyts (f : DualP)
  /-- `PACKRGB D,S/#` (R643). -/
  | packrgb (f : DualP)
  /-- `UNPKRGB D,S/#` (R644). -/
  | unpkrgb (f : DualP)
  /-- `ADDPIX D,S/#` (R919). -/
  | addpix (f : DualP)
  /-- `MULPIX D,S/#` (R920). -/
  | mulpix (f : DualP)
  /-- `BLNPIX D,S/#` (R921). -/
  | blnpix (f : DualP)
  /-- `MIXPIX D,S/#` (R922). -/
  | mixpix (f : DualP)
  /-- `JMPSW D,S/@` (R482). -/
  | jmpsw (f : Dual)
  /-- `JMPSWD D,S/@` (R483). -/
  | jmpswd (f : Dual)
  /-- `IJZ D,S/@` (R485). -/
  | ijz (f : DualP)
  /-- `IJZD D,S/@` (R486). -/
  | ijzd (f : DualP)
  /-- `IJNZ D,S/@` (R487). -/
  | ijnz (f : DualP)
  /-- `IJNZD D,S/@` (R488). -/
  | ijnzd (f : DualP)
  /-- `DJZ D,S/@` (R489). -/
  | djz (f : DualP)
  /-- `DJZD D,S/@` (R490). -/
  | djzd (f : DualP)
  /-- `DJNZ D,S/@` (R491). -/
  | djnz (f : DualP)
  /-- `DJNZD D,S/@` (R492). -/
  | djnzd (f : DualP)
  /-- `TESTB D,S/#` (R645). -/
  | testb (f : Dual)
  /-- `TESTN D,S/#` (R646). -/
  | testn (f : Dual)
  /-- `TEST D,S/#` (R647). -/
  | test (f : Dual)
  /-- `CMP D,S/#` (R648). -/
  | cmp (f : Dual)
  /-- `CMPX D,S/#` (R649). -/
  | cmpx (f : Dual)
  /-- `CMPS D,S/#` (R650). -/
  | cmps (f : Dual)
  /-- `CMPSX D,S/#` (R651). -/
  | cmpsx (f : Dual)
  /-- `CMPR D,S/#` (R652). -/
  | cmpr (f : Dual)
  /-- `COGINIT D,S/#,#0..7` (R292). -/
  | coginit (n : BitVec 3) (f : DualP)
  /-- `WAITVID #0..$DFF,S/#` (R887). -/
  | waitvidImm (n : BitVec 12) (f : DualS)
  /-- `WAITVID D,S/#` (R887). -/
  | waitvid (f : DualP)
  /-- `WAITPEQ D,S/#,#0..3` (R420). -/
  | waitpeq (n : BitVec 2) (f : DualC)
  /-- `WAITPNE D,S/#,#0..3` (R421). -/
  | waitpne (n : BitVec 2) (f : DualC)
  /-- `WRBYTE D/#,S/PTRA/PTRB` (R250). -/
  | wrbyte (f : DualL)
  /-- `WRWORD D/#,S/PTRA/PTRB` (R251). -/
  | wrword (f : DualL)
  /-- `WRLONG D/#,S/PTRA/PTRB` (R252). -/
  | wrlong (f : DualL)
  /-- `FRAC D/#,S/#` (R734). -/
  | frac (f : DualL)
  /-- `WRAUX D/#,S/#0..$FF/PTRX/PTRY` (R343). -/
  | wraux (f : DualL)
  /-- `WRAUXR D/#,S/#0..$FF/PTRX/PTRY` (R344). -/
  | wrauxr (f : DualL)
  /-- `SETACCA D/#,S/#` (R766). -/
  | setacca (f : DualL)
  /-- `SETACCB D/#,S/#` (R767). -/
  | setaccb (f : DualL)
  /-- `MACA D/#,S/#` (R761). -/
  | maca (f : DualL)
  /-- `MACB D/#,S/#` (R762). -/
  | macb (f : DualL)
  /-- `MUL32 D/#,S/#` (R724). -/
  | mul32 (f : DualL)
  /-- `MUL32U D/#,S/#` (R725). -/
  | mul32u (f : DualL)
  /-- `DIV32 D/#,S/#` (R729). -/
  | div32 (f : DualL)
  /-- `DIV32U D/#,S/#` (R730). -/
  | div32u (f : DualL)
  /-- `DIV64 D/#,S/#` (R732). -/
  | div64 (f : DualL)
  /-- `DIV64U D/#,S/#` (R733). -/
  | div64u (f : DualL)
  /-- `SQRT64 D/#,S/#` (R739). -/
  | sqrt64 (f : DualL)
  /-- `QSINCOS D/#,S/#` (R748). -/
  | qsincos (f : DualL)
  /-- `QARCTAN D/#,S/#` (R748). -/
  | qarctan (f : DualL)
  /-- `QROTATE D/#,S/#` (R748). -/
  | qrotate (f : DualL)
  /-- `SETSERA D/#,S/#` (R861). -/
  | setsera (f : DualL)
  /-- `SETSERB D/#,S/#` (R862). -/
  | setserb (f : DualL)
  /-- `SETCTRS D/#,S/#` (R801). -/
  | setctrs (f : DualL)
  /-- `SETWAVS D/#,S/#` (R802). -/
  | setwavs (f : DualL)
  /-- `SETFRQS D/#,S/#` (R803). -/
  | setfrqs (f : DualL)
  /-- `SETPHSS D/#,S/#` (R804). -/
  | setphss (f : DualL)
  /-- `ADDPHSS D/#,S/#` (R805). -/
  | addphss (f : DualL)
  /-- `SUBPHSS D/#,S/#` (R806). -/
  | subphss (f : DualL)
  /-- `JP D/#,S/@` (R497). -/
  | jp (f : DualL)
  /-- `JPD D/#,S/@` (R498). -/
  | jpd (f : DualL)
  /-- `JNP D/#,S/@` (R499). -/
  | jnp (f : DualL)
  /-- `JNPD D/#,S/@` (R500). -/
  | jnpd (f : DualL)
  /-- `CFGPINS D/#,S/#,#0..2` (R793). -/
  | cfgpins (n : BitVec 2) (f : DualL)
  /-- `JMPTASK D/#,S/#` (R395). -/
  | jmptask (f : DualL)
  /-- `SETXFR D/#,S/#` (R851). -/
  | setxfr (f : DualL)
  /-- `SETMIX D/#,S/#` (R918). -/
  | setmix (f : DualL)
  /-- `JZ D,S/@` (R493). -/
  | jz (f : DualP)
  /-- `JZD D,S/@` (R494). -/
  | jzd (f : DualP)
  /-- `JNZ D,S/@` (R495). -/
  | jnz (f : DualP)
  /-- `JNZD D,S/@` (R496). -/
  | jnzd (f : DualP)
  /-- `LOCBASE D,S/@` (R502). -/
  | locbase (f : DualP)
  /-- `LOCBYTE D,S/@` (R503). -/
  | locbyte (f : DualP)
  /-- `LOCWORD D,S/@` (R504). -/
  | locword (f : DualP)
  /-- `LOCLONG D,S/@` (R505). -/
  | loclong (f : DualP)
  /-- `JMPLIST D,S/@` (R501). -/
  | jmplist (f : DualP)
  /-- `LOCINST D,@S` (R506). -/
  | locinst (f : Loc)
  /-- `REPS #1..$10000,#1..64` (R401). -/
  | reps (n : BitVec 16) (i : BitVec 6)
  /-- `AUGS #23bits` (R530). -/
  | augs (n : BitVec 23)
  /-- `AUGD #23bits` (R531). -/
  | augd (n : BitVec 23)
  /-- `FIXINDA #terminal,#initial` (R321). -/
  | fixinda (f : Ind)
  /-- `FIXINDB #terminal,#initial` (R322). -/
  | fixindb (f : Ind)
  /-- `FIXINDS #terminal,#initial` (R323). -/
  | fixinds (f : Ind)
  /-- `SETINDA #addrA` (R324). -/
  | setindaAbs (f : Ind)
  /-- `SETINDA ++/ --deltA` (R325). -/
  | setindaRel (f : Ind)
  /-- `SETINDB #addrB` (R326). -/
  | setindbAbs (f : Ind)
  /-- `SETINDB ++/ --deltB` (R327). -/
  | setindbRel (f : Ind)
  /-- `SETINDS #addrB,#addrA` (R328). -/
  | setindsAbsAbs (f : Ind)
  /-- `SETINDS #addrB,++/ --deltA` (R328). -/
  | setindsAbsRel (f : Ind)
  /-- `SETINDS ++/ --deltB,#addrA` (R328). -/
  | setindsRelAbs (f : Ind)
  /-- `SETINDS ++/ --deltB,++/ --deltA` (R328). -/
  | setindsRelRel (f : Ind)
  /-- `LOCPTRA #abs` (R507). -/
  | locptraAbs (f : Big)
  /-- `LOCPTRA @rel` (R507). -/
  | locptraRel (f : Big)
  /-- `LOCPTRB #abs` (R508). -/
  | locptrbAbs (f : Big)
  /-- `LOCPTRB @rel` (R508). -/
  | locptrbRel (f : Big)
  /-- `JMP #abs` (R460). -/
  | jmpAbs (f : Big)
  /-- `JMP @rel` (R460). -/
  | jmpRel (f : Big)
  /-- `JMPD #abs` (R461). -/
  | jmpdAbs (f : Big)
  /-- `JMPD @rel` (R461). -/
  | jmpdRel (f : Big)
  /-- `CALL #abs` (R462). -/
  | callAbs (f : Big)
  /-- `CALL @rel` (R462). -/
  | callRel (f : Big)
  /-- `CALLD #abs` (R463). -/
  | calldAbs (f : Big)
  /-- `CALLD @rel` (R463). -/
  | calldRel (f : Big)
  /-- `CALLA #abs` (R464). -/
  | callaAbs (f : Big)
  /-- `CALLA @rel` (R464). -/
  | callaRel (f : Big)
  /-- `CALLAD #abs` (R465). -/
  | calladAbs (f : Big)
  /-- `CALLAD @rel` (R465). -/
  | calladRel (f : Big)
  /-- `CALLB #abs` (R466). -/
  | callbAbs (f : Big)
  /-- `CALLB @rel` (R466). -/
  | callbRel (f : Big)
  /-- `CALLBD #abs` (R467). -/
  | callbdAbs (f : Big)
  /-- `CALLBD @rel` (R467). -/
  | callbdRel (f : Big)
  /-- `CALLX #abs` (R468). -/
  | callxAbs (f : Big)
  /-- `CALLX @rel` (R468). -/
  | callxRel (f : Big)
  /-- `CALLXD #abs` (R469). -/
  | callxdAbs (f : Big)
  /-- `CALLXD @rel` (R469). -/
  | callxdRel (f : Big)
  /-- `CALLY #abs` (R470). -/
  | callyAbs (f : Big)
  /-- `CALLY @rel` (R470). -/
  | callyRel (f : Big)
  /-- `CALLYD #abs` (R471). -/
  | callydAbs (f : Big)
  /-- `CALLYD @rel` (R471). -/
  | callydRel (f : Big)
  /-- `COGID D` (R297). -/
  | cogid (f : SingleZC)
  /-- `TASKID D` (R392). -/
  | taskid (f : SingleZC)
  /-- `LOCKNEW D` (R303). -/
  | locknew (f : SingleZC)
  /-- `GETLFSR D` (R653). -/
  | getlfsr (f : SingleZC)
  /-- `GETCNT D` (R411). -/
  | getcnt (f : SingleZC)
  /-- `GETCNTX D` (R412). -/
  | getcntx (f : SingleZC)
  /-- `GETACAL D` (R769). -/
  | getacal (f : SingleZC)
  /-- `GETACAH D` (R769). -/
  | getacah (f : SingleZC)
  /-- `GETACBL D` (R769). -/
  | getacbl (f : SingleZC)
  /-- `GETACBH D` (R769). -/
  | getacbh (f : SingleZC)
  /-- `GETPTRA D` (R265). -/
  | getptra (f : SingleZC)
  /-- `GETPTRB D` (R266). -/
  | getptrb (f : SingleZC)
  /-- `GETPTRX D` (R360). -/
  | getptrx (f : SingleZC)
  /-- `GETPTRY D` (R361). -/
  | getptry (f : SingleZC)
  /-- `SERINA D` (R865). -/
  | serina (f : SingleZC)
  /-- `SERINB D` (R866). -/
  | serinb (f : SingleZC)
  /-- `GETMULL D` (R726). -/
  | getmull (f : SingleZC)
  /-- `GETMULH D` (R727). -/
  | getmulh (f : SingleZC)
  /-- `GETDIVQ D` (R735). -/
  | getdivq (f : SingleZC)
  /-- `GETDIVR D` (R736). -/
  | getdivr (f : SingleZC)
  /-- `GETSQRT D` (R740). -/
  | getsqrt (f : SingleZC)
  /-- `GETQX D` (R750). -/
  | getqx (f : SingleZC)
  /-- `GETQY D` (R751). -/
  | getqy (f : SingleZC)
  /-- `GETQZ D` (R752). -/
  | getqz (f : SingleZC)
  /-- `GETPHSA D` (R807). -/
  | getphsa (f : SingleZC)
  /-- `GETPHZA D` (R808). -/
  | getphza (f : SingleZC)
  /-- `GETCOSA D` (R809). -/
  | getcosa (f : SingleZC)
  /-- `GETSINA D` (R810). -/
  | getsina (f : SingleZC)
  /-- `GETPHSB D` (R807). -/
  | getphsb (f : SingleZC)
  /-- `GETPHZB D` (R808). -/
  | getphzb (f : SingleZC)
  /-- `GETCOSB D` (R809). -/
  | getcosb (f : SingleZC)
  /-- `GETSINB D` (R810). -/
  | getsinb (f : SingleZC)
  /-- `PUSHZC D` (R514). -/
  | pushzc (f : SingleZC)
  /-- `POPZC D` (R515). -/
  | popzc (f : SingleZC)
  /-- `SUBCNT D` (R413). -/
  | subcnt (f : SingleZC)
  /-- `GETPIX D` (R906). -/
  | getpix (f : SingleZC)
  /-- `BINBCD D` (R654). -/
  | binbcd (f : SingleZC)
  /-- `BCDBIN D` (R655). -/
  | bcdbin (f : SingleZC)
  /-- `BINGRY D` (R656). -/
  | bingry (f : SingleZC)
  /-- `GRYBIN D` (R657). -/
  | grybin (f : SingleZC)
  /-- `ESWAP4 D` (R658). -/
  | eswap4 (f : SingleZC)
  /-- `ESWAP8 D` (R659). -/
  | eswap8 (f : SingleZC)
  /-- `SEUSSF D` (R660). -/
  | seussf (f : SingleZC)
  /-- `SEUSSR D` (R661). -/
  | seussr (f : SingleZC)
  /-- `INCD D` (R662). -/
  | incd (f : SingleZC)
  /-- `DECD D` (R663). -/
  | decd (f : SingleZC)
  /-- `INCDS D` (R664). -/
  | incds (f : SingleZC)
  /-- `DECDS D` (R665). -/
  | decds (f : SingleZC)
  /-- `POP D` (R512). -/
  | pop (f : SingleZC)
  /-- `REPD D/#1..512,#1..64` (R402). -/
  | repd (i : BitVec 6) (f : SingleL)
  /-- `REPD #i (infinite)` (R403). -/
  | repdInf (i : BitVec 6) (f : Zero0)
  /-- `CLKSET D/#` (R300). -/
  | clkset (f : SingleL)
  /-- `COGSTOP D/#` (R298). -/
  | cogstop (f : SingleL)
  /-- `LOCKSET D/#` (R305). -/
  | lockset (f : SingleCL)
  /-- `LOCKCLR D/#` (R306). -/
  | lockclr (f : SingleCL)
  /-- `LOCKRET D/#` (R304). -/
  | lockret (f : SingleL)
  /-- `RDWIDEC D/PTRA/PTRB` (R256). -/
  | rdwidec (f : SingleL)
  /-- `RDWIDE D/PTRA/PTRB` (R255). -/
  | rdwide (f : SingleL)
  /-- `WRWIDE D/PTRA/PTRB` (R257). -/
  | wrwide (f : SingleL)
  /-- `GETP D/#` (R790). -/
  | getp (f : SingleZCL)
  /-- `GETNP D/#` (R791). -/
  | getnp (f : SingleZCL)
  /-- `SEROUTA D/#` (R863). -/
  | serouta (f : SingleCL)
  /-- `SEROUTB D/#` (R864). -/
  | seroutb (f : SingleCL)
  /-- `CMPCNT D/#` (R415). -/
  | cmpcnt (f : SingleCL)
  /-- `WAITPX D/#` (R422). -/
  | waitpx (f : SingleCL)
  /-- `WAITPR D/#` (R423). -/
  | waitpr (f : SingleCL)
  /-- `WAITPF D/#` (R424). -/
  | waitpf (f : SingleCL)
  /-- `SETZC D/#` (R513). -/
  | setzc (f : SingleZCL)
  /-- `SETMAP D/#` (R931). -/
  | setmap (f : SingleL)
  /-- `SETXCH D/#` (R941). -/
  | setxch (f : SingleL)
  /-- `SETTASK D/#` (R394). -/
  | settask (f : SingleL)
  /-- `SETRACE D/#` (R870). -/
  | setrace (f : SingleL)
  /-- `SARACCA D/#` (R768). -/
  | saracca (f : SingleL)
  /-- `SARACCB D/#` (R768). -/
  | saraccb (f : SingleL)
  /-- `SARACCS D/#` (R768). -/
  | saraccs (f : SingleL)
  /-- `SETPTRA D/#` (R267). -/
  | setptra (f : SingleL)
  /-- `SETPTRB D/#` (R268). -/
  | setptrb (f : SingleL)
  /-- `ADDPTRA D/#` (R269). -/
  | addptra (f : SingleL)
  /-- `ADDPTRB D/#` (R270). -/
  | addptrb (f : SingleL)
  /-- `SUBPTRA D/#` (R271). -/
  | subptra (f : SingleL)
  /-- `SUBPTRB D/#` (R272). -/
  | subptrb (f : SingleL)
  /-- `SETWIDE D/#` (R260). -/
  | setwide (f : SingleL)
  /-- `SETWIDZ D/#` (R261). -/
  | setwidz (f : SingleL)
  /-- `SETPTRX D/#` (R362). -/
  | setptrx (f : SingleL)
  /-- `SETPTRY D/#` (R363). -/
  | setptry (f : SingleL)
  /-- `ADDPTRX D/#` (R364). -/
  | addptrx (f : SingleL)
  /-- `ADDPTRY D/#` (R365). -/
  | addptry (f : SingleL)
  /-- `SUBPTRX D/#` (R366). -/
  | subptrx (f : SingleL)
  /-- `SUBPTRY D/#` (R367). -/
  | subptry (f : SingleL)
  /-- `PASSCNT D/#` (R416). -/
  | passcnt (f : SingleL)
  /-- `WAIT D/#` (R417). -/
  | wait (f : SingleL)
  /-- `OFFP D/#` (R782). -/
  | offp (f : SingleL)
  /-- `NOTP D/#` (R783). -/
  | notp (f : SingleL)
  /-- `CLRP D/#` (R784). -/
  | clrp (f : SingleL)
  /-- `SETP D/#` (R785). -/
  | setp (f : SingleL)
  /-- `SETPC D/#` (R786). -/
  | setpc (f : SingleL)
  /-- `SETPNC D/#` (R787). -/
  | setpnc (f : SingleL)
  /-- `SETPZ D/#` (R788). -/
  | setpz (f : SingleL)
  /-- `SETPNZ D/#` (R789). -/
  | setpnz (f : SingleL)
  /-- `DIV64D D/#` (R731). -/
  | div64d (f : SingleL)
  /-- `SQRT32 D/#` (R738). -/
  | sqrt32 (f : SingleL)
  /-- `QLOG D/#` (R744). -/
  | qlog (f : SingleL)
  /-- `QEXP D/#` (R745). -/
  | qexp (f : SingleL)
  /-- `SETQI D/#` (R742). -/
  | setqi (f : SingleL)
  /-- `SETQZ D/#` (R743). -/
  | setqz (f : SingleL)
  /-- `CFGDACS D/#` (R835). -/
  | cfgdacs (f : SingleL)
  /-- `SETDACS D/#` (R840). -/
  | setdacs (f : SingleL)
  /-- `CFGDAC0 D/#` (R831). -/
  | cfgdac0 (f : SingleL)
  /-- `CFGDAC1 D/#` (R832). -/
  | cfgdac1 (f : SingleL)
  /-- `CFGDAC2 D/#` (R833). -/
  | cfgdac2 (f : SingleL)
  /-- `CFGDAC3 D/#` (R834). -/
  | cfgdac3 (f : SingleL)
  /-- `SETDAC0 D/#` (R836). -/
  | setdac0 (f : SingleL)
  /-- `SETDAC1 D/#` (R837). -/
  | setdac1 (f : SingleL)
  /-- `SETDAC2 D/#` (R838). -/
  | setdac2 (f : SingleL)
  /-- `SETDAC3 D/#` (R839). -/
  | setdac3 (f : SingleL)
  /-- `SETCTRA D/#` (R801). -/
  | setctra (f : SingleL)
  /-- `SETWAVA D/#` (R802). -/
  | setwava (f : SingleL)
  /-- `SETFRQA D/#` (R803). -/
  | setfrqa (f : SingleL)
  /-- `SETPHSA D/#` (R804). -/
  | setphsa (f : SingleL)
  /-- `ADDPHSA D/#` (R805). -/
  | addphsa (f : SingleL)
  /-- `SUBPHSA D/#` (R806). -/
  | subphsa (f : SingleL)
  /-- `SETVID D/#` (R881). -/
  | setvid (f : SingleL)
  /-- `SETVIDY D/#` (R882). -/
  | setvidy (f : SingleL)
  /-- `SETCTRB D/#` (R801). -/
  | setctrb (f : SingleL)
  /-- `SETWAVB D/#` (R802). -/
  | setwavb (f : SingleL)
  /-- `SETFRQB D/#` (R803). -/
  | setfrqb (f : SingleL)
  /-- `SETPHSB D/#` (R804). -/
  | setphsb (f : SingleL)
  /-- `ADDPHSB D/#` (R805). -/
  | addphsb (f : SingleL)
  /-- `SUBPHSB D/#` (R806). -/
  | subphsb (f : SingleL)
  /-- `SETVIDI D/#` (R883). -/
  | setvidi (f : SingleL)
  /-- `SETVIDQ D/#` (R884). -/
  | setvidq (f : SingleL)
  /-- `SETPIX D/#` (R901). -/
  | setpix (f : SingleL)
  /-- `SETPIXZ D/#` (R902). -/
  | setpixz (f : SingleL)
  /-- `SETPIXU D/#` (R902). -/
  | setpixu (f : SingleL)
  /-- `SETPIXV D/#` (R902). -/
  | setpixv (f : SingleL)
  /-- `SETPIXA D/#` (R902). -/
  | setpixa (f : SingleL)
  /-- `SETPIXR D/#` (R902). -/
  | setpixr (f : SingleL)
  /-- `SETPIXG D/#` (R902). -/
  | setpixg (f : SingleL)
  /-- `SETPIXB D/#` (R902). -/
  | setpixb (f : SingleL)
  /-- `SETPORA D/#` (R794). -/
  | setpora (f : SingleL)
  /-- `SETPORB D/#` (R795). -/
  | setporb (f : SingleL)
  /-- `SETPORC D/#` (R796). -/
  | setporc (f : SingleL)
  /-- `SETPORD D/#` (R797). -/
  | setpord (f : SingleL)
  /-- `PUSH D/#` (R511). -/
  | push (f : SingleL)
  /-- `JMP D` (R460). -/
  | jmpReg (f : SingleZC)
  /-- `JMPD D` (R461). -/
  | jmpdReg (f : SingleZC)
  /-- `CALL D` (R462). -/
  | callReg (f : SingleZC)
  /-- `CALLD D` (R463). -/
  | calldReg (f : SingleZC)
  /-- `CALLA D` (R464). -/
  | callaReg (f : SingleZC)
  /-- `CALLAD D` (R465). -/
  | calladReg (f : SingleZC)
  /-- `CALLB D` (R466). -/
  | callbReg (f : SingleZC)
  /-- `CALLBD D` (R467). -/
  | callbdReg (f : SingleZC)
  /-- `CALLX D` (R468). -/
  | callxReg (f : SingleZC)
  /-- `CALLXD D` (R469). -/
  | callxdReg (f : SingleZC)
  /-- `CALLY D` (R470). -/
  | callyReg (f : SingleZC)
  /-- `CALLYD D` (R471). -/
  | callydReg (f : SingleZC)
  /-- `RETA` (R474). -/
  | reta (f : Zero0ZC)
  /-- `RETAD` (R475). -/
  | retad (f : Zero0ZC)
  /-- `RETB` (R476). -/
  | retb (f : Zero0ZC)
  /-- `RETBD` (R477). -/
  | retbd (f : Zero0ZC)
  /-- `RETX` (R478). -/
  | retx (f : Zero0ZC)
  /-- `RETXD` (R479). -/
  | retxd (f : Zero0ZC)
  /-- `RETY` (R480). -/
  | rety (f : Zero0ZC)
  /-- `RETYD` (R481). -/
  | retyd (f : Zero0ZC)
  /-- `RET` (R472). -/
  | ret (f : Zero0ZC)
  /-- `RETD` (R473). -/
  | retd (f : Zero0ZC)
  /-- `POLCTRA` (R817). -/
  | polctra (f : Zero0ZC)
  /-- `POLCTRB` (R817). -/
  | polctrb (f : Zero0ZC)
  /-- `POLVID` (R888). -/
  | polvid (f : Zero0ZC)
  /-- `CAPCTRA` (R811). -/
  | capctra (f : Zero0)
  /-- `CAPCTRB` (R811). -/
  | capctrb (f : Zero0)
  /-- `CAPCTRS` (R811). -/
  | capctrs (f : Zero0)
  /-- `SETPIXW` (R904). -/
  | setpixw (f : Zero0)
  /-- `CLRACCA` (R763). -/
  | clracca (f : Zero0)
  /-- `CLRACCB` (R764). -/
  | clraccb (f : Zero0)
  /-- `CLRACCS` (R765). -/
  | clraccs (f : Zero0)
  /-- `CHKPTRX` (R368). -/
  | chkptrx (f : Zero0ZC)
  /-- `CHKPTRY` (R369). -/
  | chkptry (f : Zero0ZC)
  /-- `SYNCTRA` (R816). -/
  | synctra (f : Zero0)
  /-- `SYNCTRB` (R816). -/
  | synctrb (f : Zero0)
  /-- `DCACHEX` (R262). -/
  | dcachex (f : Zero0)
  /-- `ICACHEX` (R540). -/
  | icachex (f : Zero0)
  /-- `ICACHEP` (R541). -/
  | icachep (f : Zero0)
  /-- `ICACHEN` (R542). -/
  | icachen (f : Zero0)
  /-- `NOP`, a second name of `RDBYTE (condition never)` (R198). -/
  | nop
  /-- `MERGEN D,S/#`, a second name of `SPLITB` (R623). -/
  | mergen (f : DualP)
  /-- `SPLITN D,S/#`, a second name of `MERGEB` (R624). -/
  | splitn (f : DualP)
  /-- `SWITCH`, a second name of `JMPSW INDB,++INDB WZ,WC` (R484). -/
  | switch
  /-- `SWITCHD`, a second name of `JMPSWD INDB,++INDB WZ,WC` (R484). -/
  | switchd
  /-- `PUSHA D/#`, a second name of `WRLONG D/#,PTRA++` (R202). -/
  | pusha (f : SingleL)
  /-- `PUSHB D/#`, a second name of `WRLONG D/#,PTRB++` (R202). -/
  | pushb (f : SingleL)
  /-- `POPA D`, a second name of `RDLONG D,--PTRA` (R202). -/
  | popa (f : SingleZC)
  /-- `POPB D`, a second name of `RDLONG D,--PTRB` (R202). -/
  | popb (f : SingleZC)
  /-- `PUSHX D/#`, a second name of `WRAUX D/#,PTRX++` (R345). -/
  | pushx (f : SingleL)
  /-- `PUSHY D/#`, a second name of `WRAUXR D/#,PTRY++` (R345). -/
  | pushy (f : SingleL)
  /-- `POPX D`, a second name of `RDAUX D,--PTRX` (R345). -/
  | popx (f : SingleZC)
  /-- `POPY D`, a second name of `RDAUXR D,--PTRY` (R345). -/
  | popy (f : SingleZC)
deriving DecidableEq, Repr

end Sys2Proof
end

