-- ==== Sys2Proof/WellFormed.lean ====
section
/-!
DEFINITION. Which terms of `Instr` are the reading of some word. The field widths are in the types; what is left are
the places where one row's pattern gives words to another row (R185, R196) and the second names (R198, R202): a
word with a name of its own is read under that name (log 46).
-/

set_option Elab.async false

namespace Sys2Proof

/-- `FIXINDx`-style pattern of `PUSHA`/`PUSHB` and of `POPA`/`POPB`: the pointer expressions of R202. -/
def isPushHub (s : RegAddr) : Bool := s == 0x0C1#9 || s == 0x1C1#9
def isPopHub (s : RegAddr) : Bool := s == 0x0BF#9 || s == 0x1BF#9

/-- A term that some instruction word decodes to. -/
def Instr.wellFormed : Instr → Bool
  -- the zero word is NOP (R198); R202 gives names to the pointer forms with one pre- or post-step
  | .rdbyte f => !(f == ⟨false, false, false, 0, 0, 0⟩)
  | .wrlong f => !(f.i && isPushHub f.s)
  | .rdlong f => !(f.i && isPopHub f.s)
  | .wraux f => !(f.i && f.s == 0x161#9)
  | .wrauxr f => !(f.i && f.s == 0x1E1#9)
  | .rdaux f => !(f.i && f.s == 0x15F#9)
  | .rdauxr f => !(f.i && f.s == 0x1DF#9)
  | .jmpsw f => !(f == ⟨true, true, false, 0x3, 0x1F3, 0x1F3⟩)
  | .jmpswd f => !(f == ⟨true, true, false, 0x3, 0x1F3, 0x1F3⟩)
  -- SPLITB and MERGEB have their words; MERGEN and SPLITN are second names of the same words (R623, R624)
  | .mergen _ => false
  | .splitn _ => false
  -- %111 in bits 26:24 is the register form of WAITVID, n = 3 of CFGPINS is JMPTASK (R185)
  | .waitvidImm n _ => !(n.extractLsb' 9 3 == 7#3)
  | .cfgpins n _ => !(n == 3#2)
  -- D field $1FF with L = 0 is the infinite form (R403)
  | .repd _ f => !(!f.l && f.d == 0x1FF#9)
  | _ => true

end Sys2Proof
end

