-- ==== Sys2Proof/Decode.lean ====
section
/-!
DEFINITION. Reading an instruction word and writing one (30_encoding.md R170 to R198). A word is split into the
seven fields every format shares (R172); `decodeFields` reads them row by row; words of no row are rejected by
name (R195). The encoder writes the same fields and joins them.

The reader is marked noncomputable for one reason: Lean's code generator gives an inductive with operands at most
about 244 constructors, and the opcode table has 411 rows. The kernel evaluates every definition here (log 56).
-/

set_option Elab.async false

namespace Sys2Proof

noncomputable section

/-- Why a word is no instruction (R195). -/
inductive DecodeError where
  /-- (a) SINGLE opcode of no row. -/
  | unassignedSingle
  /-- (b) primary %1111110 with a BBAA value of no row. -/
  | unassignedInd
  /-- (c) bit 24 or 23 set where the row prints 0. -/
  | reservedFlags
  /-- (d) bit 22 set where the row prints 0. -/
  | reservedImmediate
deriving DecidableEq, Repr

/-- The fields of R172, bit 31 first. -/
structure Fields where
  op : BitVec 7
  b24 : Bool
  b23 : Bool
  b22 : Bool
  cond : BitVec 4
  d : RegAddr
  s : RegAddr
deriving DecidableEq, Repr

/-- The fields of a word. -/
def Fields.split (w : Word) : Fields :=
  ⟨w.extractLsb' 25 7, w.getLsbD 24, w.getLsbD 23, w.getLsbD 22, w.extractLsb' 18 4, w.extractLsb' 9 9,
    w.extractLsb' 0 9⟩

/-- The word with these fields. -/
def Fields.join (f : Fields) : Word :=
  f.op ++ (BitVec.ofBool f.b24 ++ (BitVec.ofBool f.b23 ++ (BitVec.ofBool f.b22 ++ (f.cond ++ (f.d ++ f.s)))))

/-- What a reader of fields answers. -/
abbrev Decoded := Except DecodeError Instr

def Fields.dual (k : Dual → Instr) (f : Fields) : Decoded := .ok (k ⟨f.b24, f.b23, f.b22, f.cond, f.d, f.s⟩)
def Fields.dualZ (k : DualZ → Instr) (f : Fields) : Decoded := .ok (k ⟨f.b24, f.b22, f.cond, f.d, f.s⟩)
def Fields.dualC (k : DualC → Instr) (f : Fields) : Decoded := .ok (k ⟨f.b23, f.b22, f.cond, f.d, f.s⟩)
def Fields.dualL (k : DualL → Instr) (f : Fields) : Decoded := .ok (k ⟨f.b23, f.b22, f.cond, f.d, f.s⟩)
def Fields.dualP (k : DualP → Instr) (f : Fields) : Decoded := .ok (k ⟨f.b22, f.cond, f.d, f.s⟩)
def Fields.singleZC (k : SingleZC → Instr) (f : Fields) : Decoded :=
  if f.b22 then .error .reservedImmediate else .ok (k ⟨f.b24, f.b23, f.cond, f.d⟩)
def Fields.singleL (k : SingleL → Instr) (f : Fields) : Decoded :=
  if f.b24 || f.b23 then .error .reservedFlags else .ok (k ⟨f.b22, f.cond, f.d⟩)
def Fields.singleCL (k : SingleCL → Instr) (f : Fields) : Decoded :=
  if f.b24 then .error .reservedFlags else .ok (k ⟨f.b23, f.b22, f.cond, f.d⟩)
def Fields.singleZCL (k : SingleZCL → Instr) (f : Fields) : Decoded := .ok (k ⟨f.b24, f.b23, f.b22, f.cond, f.d⟩)
def Fields.zero0 (k : Zero0 → Instr) (f : Fields) : Decoded :=
  if f.b24 || f.b23 then .error .reservedFlags else .ok (k ⟨f.cond⟩)
def Fields.zero0ZC (k : Zero0ZC → Instr) (f : Fields) : Decoded := .ok (k ⟨f.b24, f.b23, f.cond⟩)
/-- BIG16: D[8:7] is `mm`, the constant is {D[6:0], S}. -/
def Fields.big (k : Big → Instr) (f : Fields) : Decoded := .ok (k ⟨f.cond, f.d.extractLsb' 0 7 ++ f.s⟩)
def Fields.ind (k : Ind → Instr) (f : Fields) : Decoded := .ok (k ⟨f.d, f.s⟩)

/-- SINGLE opcodes $000..$00F. -/
def Fields.single00 (f : Fields) : Decoded :=
  match f.s.toNat % 16 with
  | 0 => f.singleZC .cogid
  | 1 => f.singleZC .taskid
  | 2 => f.singleZC .locknew
  | 3 => f.singleZC .getlfsr
  | 4 => f.singleZC .getcnt
  | 5 => f.singleZC .getcntx
  | 6 => f.singleZC .getacal
  | 7 => f.singleZC .getacah
  | 8 => f.singleZC .getacbl
  | 9 => f.singleZC .getacbh
  | 10 => f.singleZC .getptra
  | 11 => f.singleZC .getptrb
  | 12 => f.singleZC .getptrx
  | 13 => f.singleZC .getptry
  | 14 => f.singleZC .serina
  | _ => f.singleZC .serinb

/-- SINGLE opcodes $010..$01F. -/
def Fields.single01 (f : Fields) : Decoded :=
  match f.s.toNat % 16 with
  | 0 => f.singleZC .getmull
  | 1 => f.singleZC .getmulh
  | 2 => f.singleZC .getdivq
  | 3 => f.singleZC .getdivr
  | 4 => f.singleZC .getsqrt
  | 5 => f.singleZC .getqx
  | 6 => f.singleZC .getqy
  | 7 => f.singleZC .getqz
  | 8 => f.singleZC .getphsa
  | 9 => f.singleZC .getphza
  | 10 => f.singleZC .getcosa
  | 11 => f.singleZC .getsina
  | 12 => f.singleZC .getphsb
  | 13 => f.singleZC .getphzb
  | 14 => f.singleZC .getcosb
  | _ => f.singleZC .getsinb

/-- SINGLE opcodes $020..$02F. -/
def Fields.single02 (f : Fields) : Decoded :=
  match f.s.toNat % 16 with
  | 0 => f.singleZC .pushzc
  | 1 => f.singleZC .popzc
  | 2 => f.singleZC .subcnt
  | 3 => f.singleZC .getpix
  | 4 => f.singleZC .binbcd
  | 5 => f.singleZC .bcdbin
  | 6 => f.singleZC .bingry
  | 7 => f.singleZC .grybin
  | 8 => f.singleZC .eswap4
  | 9 => f.singleZC .eswap8
  | 10 => f.singleZC .seussf
  | 11 => f.singleZC .seussr
  | 12 => f.singleZC .incd
  | 13 => f.singleZC .decd
  | 14 => f.singleZC .incds
  | _ => f.singleZC .decds

/-- SINGLE opcodes $030..$03F. -/
def Fields.single03 (f : Fields) : Decoded :=
  match f.s.toNat % 16 with
  | 0 => f.singleZC .pop
  | _ => .error .unassignedSingle

/-- SINGLE opcodes $080..$08F. -/
def Fields.single08 (f : Fields) : Decoded :=
  match f.s.toNat % 16 with
  | 0 => f.singleL .clkset
  | 1 => f.singleL .cogstop
  | 2 => f.singleCL .lockset
  | 3 => f.singleCL .lockclr
  | 4 => f.singleL .lockret
  | 5 => f.singleL .rdwidec
  | 6 => f.singleL .rdwide
  | 7 => f.singleL .wrwide
  | 8 => f.singleZCL .getp
  | 9 => f.singleZCL .getnp
  | 10 => f.singleCL .serouta
  | 11 => f.singleCL .seroutb
  | 12 => f.singleCL .cmpcnt
  | 13 => f.singleCL .waitpx
  | 14 => f.singleCL .waitpr
  | _ => f.singleCL .waitpf

/-- SINGLE opcodes $090..$09F. -/
def Fields.single09 (f : Fields) : Decoded :=
  match f.s.toNat % 16 with
  | 0 => f.singleZCL .setzc
  | 1 => f.singleL .setmap
  | 2 => f.singleL .setxch
  | 3 => f.singleL .settask
  | 4 => f.singleL .setrace
  | 5 => f.singleL .saracca
  | 6 => f.singleL .saraccb
  | 7 => f.singleL .saraccs
  | 8 => f.singleL .setptra
  | 9 => f.singleL .setptrb
  | 10 => f.singleL .addptra
  | 11 => f.singleL .addptrb
  | 12 => f.singleL .subptra
  | 13 => f.singleL .subptrb
  | 14 => f.singleL .setwide
  | _ => f.singleL .setwidz

/-- SINGLE opcodes $0A0..$0AF. -/
def Fields.single10 (f : Fields) : Decoded :=
  match f.s.toNat % 16 with
  | 0 => f.singleL .setptrx
  | 1 => f.singleL .setptry
  | 2 => f.singleL .addptrx
  | 3 => f.singleL .addptry
  | 4 => f.singleL .subptrx
  | 5 => f.singleL .subptry
  | 6 => f.singleL .passcnt
  | 7 => f.singleL .wait
  | 8 => f.singleL .offp
  | 9 => f.singleL .notp
  | 10 => f.singleL .clrp
  | 11 => f.singleL .setp
  | 12 => f.singleL .setpc
  | 13 => f.singleL .setpnc
  | 14 => f.singleL .setpz
  | _ => f.singleL .setpnz

/-- SINGLE opcodes $0B0..$0BF. -/
def Fields.single11 (f : Fields) : Decoded :=
  match f.s.toNat % 16 with
  | 0 => f.singleL .div64d
  | 1 => f.singleL .sqrt32
  | 2 => f.singleL .qlog
  | 3 => f.singleL .qexp
  | 4 => f.singleL .setqi
  | 5 => f.singleL .setqz
  | 6 => f.singleL .cfgdacs
  | 7 => f.singleL .setdacs
  | 8 => f.singleL .cfgdac0
  | 9 => f.singleL .cfgdac1
  | 10 => f.singleL .cfgdac2
  | 11 => f.singleL .cfgdac3
  | 12 => f.singleL .setdac0
  | 13 => f.singleL .setdac1
  | 14 => f.singleL .setdac2
  | _ => f.singleL .setdac3

/-- SINGLE opcodes $0C0..$0CF. -/
def Fields.single12 (f : Fields) : Decoded :=
  match f.s.toNat % 16 with
  | 0 => f.singleL .setctra
  | 1 => f.singleL .setwava
  | 2 => f.singleL .setfrqa
  | 3 => f.singleL .setphsa
  | 4 => f.singleL .addphsa
  | 5 => f.singleL .subphsa
  | 6 => f.singleL .setvid
  | 7 => f.singleL .setvidy
  | 8 => f.singleL .setctrb
  | 9 => f.singleL .setwavb
  | 10 => f.singleL .setfrqb
  | 11 => f.singleL .setphsb
  | 12 => f.singleL .addphsb
  | 13 => f.singleL .subphsb
  | 14 => f.singleL .setvidi
  | _ => f.singleL .setvidq

/-- SINGLE opcodes $0D0..$0DF. -/
def Fields.single13 (f : Fields) : Decoded :=
  match f.s.toNat % 16 with
  | 0 => f.singleL .setpix
  | 1 => f.singleL .setpixz
  | 2 => f.singleL .setpixu
  | 3 => f.singleL .setpixv
  | 4 => f.singleL .setpixa
  | 5 => f.singleL .setpixr
  | 6 => f.singleL .setpixg
  | 7 => f.singleL .setpixb
  | 8 => f.singleL .setpora
  | 9 => f.singleL .setporb
  | 10 => f.singleL .setporc
  | 11 => f.singleL .setpord
  | 12 => f.singleL .push
  | _ => .error .unassignedSingle

/-- SINGLE opcodes $0F0..$0FF. -/
def Fields.single15 (f : Fields) : Decoded :=
  match f.s.toNat % 16 with
  | 4 => f.singleZC .jmpReg
  | 5 => f.singleZC .jmpdReg
  | 6 => f.singleZC .callReg
  | 7 => f.singleZC .calldReg
  | 8 => f.singleZC .callaReg
  | 9 => f.singleZC .calladReg
  | 10 => f.singleZC .callbReg
  | 11 => f.singleZC .callbdReg
  | 12 => f.singleZC .callxReg
  | 13 => f.singleZC .callxdReg
  | 14 => f.singleZC .callyReg
  | 15 => f.singleZC .callydReg
  | _ => .error .unassignedSingle

/-- SINGLE opcodes $100..$10F. -/
def Fields.single16 (f : Fields) : Decoded :=
  match f.s.toNat % 16 with
  | 0 => f.zero0ZC .reta
  | 1 => f.zero0ZC .retad
  | 2 => f.zero0ZC .retb
  | 3 => f.zero0ZC .retbd
  | 4 => f.zero0ZC .retx
  | 5 => f.zero0ZC .retxd
  | 6 => f.zero0ZC .rety
  | 7 => f.zero0ZC .retyd
  | 8 => f.zero0ZC .ret
  | 9 => f.zero0ZC .retd
  | 10 => f.zero0ZC .polctra
  | 11 => f.zero0ZC .polctrb
  | 12 => f.zero0ZC .polvid
  | 13 => f.zero0 .capctra
  | 14 => f.zero0 .capctrb
  | _ => f.zero0 .capctrs

/-- SINGLE opcodes $110..$11F. -/
def Fields.single17 (f : Fields) : Decoded :=
  match f.s.toNat % 16 with
  | 0 => f.zero0 .setpixw
  | 1 => f.zero0 .clracca
  | 2 => f.zero0 .clraccb
  | 3 => f.zero0 .clraccs
  | 4 => f.zero0ZC .chkptrx
  | 5 => f.zero0ZC .chkptry
  | 6 => f.zero0 .synctra
  | 7 => f.zero0 .synctrb
  | 8 => f.zero0 .dcachex
  | 9 => f.zero0 .icachex
  | 10 => f.zero0 .icachep
  | 11 => f.zero0 .icachen
  | _ => .error .unassignedSingle

/-- `REPD`, SINGLE opcodes $040..$07F (R402, R403). -/
def Fields.repd (f : Fields) : Decoded :=
  if f.b24 || f.b23 then .error .reservedFlags
  else if !f.b22 && f.d == 0x1FF#9 then .ok (.repdInf (f.s.extractLsb' 0 6) ⟨f.cond⟩)
  else .ok (.repd (f.s.extractLsb' 0 6) ⟨f.b22, f.cond, f.d⟩)

/-- Primary %1111111 (R171 SINGLE and SINGLE0). -/
def Fields.single (f : Fields) : Decoded :=
  match f.s.toNat / 16 with
  | 0 => f.single00
  | 1 => f.single01
  | 2 => f.single02
  | 3 => f.single03
  | 4 => f.repd
  | 5 => f.repd
  | 6 => f.repd
  | 7 => f.repd
  | 8 => f.single08
  | 9 => f.single09
  | 10 => f.single10
  | 11 => f.single11
  | 12 => f.single12
  | 13 => f.single13
  | 15 => f.single15
  | 16 => f.single16
  | 17 => f.single17
  | _ => .error .unassignedSingle

/-- Primary %1111110 with bits 24:22 = 000: BBAA in the condition place (R171 IND, R195 (b)). -/
def Fields.indirect (f : Fields) : Decoded :=
  match f.cond.toNat with
  | 1 => f.ind .fixinda
  | 4 => f.ind .fixindb
  | 5 => f.ind .fixinds
  | 2 => f.ind .setindaAbs
  | 3 => f.ind .setindaRel
  | 8 => f.ind .setindbAbs
  | 12 => f.ind .setindbRel
  | 10 => f.ind .setindsAbsAbs
  | 11 => f.ind .setindsAbsRel
  | 14 => f.ind .setindsRelAbs
  | 15 => f.ind .setindsRelRel
  | _ => .error .unassignedInd

/-- Primary %1111110 (R171 BIG16 and IND). -/
def Fields.big16 (f : Fields) : Decoded :=
  match f.b24, f.b23, f.b22, f.d.toNat / 128 with
  | false, false, false, _ => f.indirect
  | false, false, true, 0 => f.big .locptraAbs
  | false, false, true, 1 => f.big .locptraRel
  | false, false, true, 2 => f.big .locptrbAbs
  | false, false, true, _ => f.big .locptrbRel
  | false, true, false, 0 => f.big .jmpAbs
  | false, true, false, 1 => f.big .jmpRel
  | false, true, false, 2 => f.big .jmpdAbs
  | false, true, false, _ => f.big .jmpdRel
  | false, true, true, 0 => f.big .callAbs
  | false, true, true, 1 => f.big .callRel
  | false, true, true, 2 => f.big .calldAbs
  | false, true, true, _ => f.big .calldRel
  | true, false, false, 0 => f.big .callaAbs
  | true, false, false, 1 => f.big .callaRel
  | true, false, false, 2 => f.big .calladAbs
  | true, false, false, _ => f.big .calladRel
  | true, false, true, 0 => f.big .callbAbs
  | true, false, true, 1 => f.big .callbRel
  | true, false, true, 2 => f.big .callbdAbs
  | true, false, true, _ => f.big .callbdRel
  | true, true, false, 0 => f.big .callxAbs
  | true, true, false, 1 => f.big .callxRel
  | true, true, false, 2 => f.big .callxdAbs
  | true, true, false, _ => f.big .callxdRel
  | true, true, true, 0 => f.big .callyAbs
  | true, true, true, 1 => f.big .callyRel
  | true, true, true, 2 => f.big .callydAbs
  | true, true, true, _ => f.big .callydRel

/-- Primary opcodes 0 to 15. -/
def Fields.row0 (f : Fields) : Decoded :=
  match f.op.toNat % 16 with
  | 0 => f.dual .rdbyte
  | 1 => f.dual .rdbytec
  | 2 => f.dual .rdword
  | 3 => f.dual .rdwordc
  | 4 => f.dual .rdlong
  | 5 => f.dual .rdlongc
  | 6 => f.dual .rdaux
  | 7 => f.dual .rdauxr
  | 8 => f.dual .isob
  | 9 => f.dual .notb
  | 10 => f.dual .clrb
  | 11 => f.dual .setb
  | 12 => f.dual .setbc
  | 13 => f.dual .setbnc
  | 14 => f.dual .setbz
  | _ => f.dual .setbnz

/-- Primary opcodes 16 to 31. -/
def Fields.row1 (f : Fields) : Decoded :=
  match f.op.toNat % 16 with
  | 0 => f.dual .andn
  | 1 => f.dual .and
  | 2 => f.dual .or
  | 3 => f.dual .xor
  | 4 => f.dual .muxc
  | 5 => f.dual .muxnc
  | 6 => f.dual .muxz
  | 7 => f.dual .muxnz
  | 8 => f.dual .ror
  | 9 => f.dual .rol
  | 10 => f.dual .shr
  | 11 => f.dual .shl
  | 12 => f.dual .rcr
  | 13 => f.dual .rcl
  | 14 => f.dual .sar
  | _ => f.dual .rev

/-- Primary opcodes 32 to 47. -/
def Fields.row2 (f : Fields) : Decoded :=
  match f.op.toNat % 16 with
  | 0 => f.dual .mov
  | 1 => f.dual .not
  | 2 => f.dual .abs
  | 3 => f.dual .neg
  | 4 => f.dual .negc
  | 5 => f.dual .negnc
  | 6 => f.dual .negz
  | 7 => f.dual .negnz
  | 8 => f.dual .add
  | 9 => f.dual .sub
  | 10 => f.dual .addx
  | 11 => f.dual .subx
  | 12 => f.dual .adds
  | 13 => f.dual .subs
  | 14 => f.dual .addsx
  | _ => f.dual .subsx

/-- Primary opcodes 48 to 63. -/
def Fields.row3 (f : Fields) : Decoded :=
  match f.op.toNat % 16 with
  | 0 => f.dual .sumc
  | 1 => f.dual .sumnc
  | 2 => f.dual .sumz
  | 3 => f.dual .sumnz
  | 4 => f.dual .min
  | 5 => f.dual .max
  | 6 => f.dual .mins
  | 7 => f.dual .maxs
  | 8 => f.dual .addabs
  | 9 => f.dual .subabs
  | 10 => f.dual .incmod
  | 11 => f.dual .decmod
  | 12 => f.dual .cmpsub
  | 13 => f.dual .subr
  | 14 => f.dual .mul
  | _ => f.dual .scl

/-- Primary opcodes 64 to 79. -/
def Fields.row4 (f : Fields) : Decoded :=
  match f.op.toNat % 16 with
  | 0 => f.dual .decod2
  | 1 => f.dual .decod3
  | 2 => f.dual .decod4
  | 3 => f.dual .decod5
  | 4 => if f.b23 then f.dualZ .blmask else f.dualZ .encod
  | 5 => if f.b23 then f.dualZ .zercnt else f.dualZ .onecnt
  | 6 => if f.b24 then f.dualC .decpat else f.dualC .incpat
  | 7 => match f.b24, f.b23 with
    | false, false => f.dualP .splitb
    | false, true => f.dualP .mergeb
    | true, false => f.dualP .splitw
    | true, true => f.dualP .mergew
  | 8 => if f.b23 then f.dualP (.setnib (0b00#2 ++ BitVec.ofBool f.b24)) else f.dualP (.getnib (0b00#2 ++ BitVec.ofBool f.b24))
  | 9 => if f.b23 then f.dualP (.setnib (0b01#2 ++ BitVec.ofBool f.b24)) else f.dualP (.getnib (0b01#2 ++ BitVec.ofBool f.b24))
  | 10 => if f.b23 then f.dualP (.setnib (0b10#2 ++ BitVec.ofBool f.b24)) else f.dualP (.getnib (0b10#2 ++ BitVec.ofBool f.b24))
  | 11 => if f.b23 then f.dualP (.setnib (0b11#2 ++ BitVec.ofBool f.b24)) else f.dualP (.getnib (0b11#2 ++ BitVec.ofBool f.b24))
  | 12 => if f.b23 then f.dualP (.setword (BitVec.ofBool f.b24)) else f.dualP (.getword (BitVec.ofBool f.b24))
  | 13 => match f.b24, f.b23 with
    | false, false => f.dualP .setwrds
    | false, true => f.dualP .rolnib
    | true, false => f.dualP .rolbyte
    | true, true => f.dualP .rolword
  | 14 => match f.b24, f.b23 with
    | false, false => f.dualP .sets
    | false, true => f.dualP .setd
    | true, false => f.dualP .setx
    | true, true => f.dualP .seti
  | _ => match f.b24, f.b23 with
    | false, false => f.dualC .cognew
    | false, true => f.dualC .cognew
    | true, false => f.dualP .waitcnt
    | true, true => f.dualP .waitcntWc

/-- Primary opcodes 80 to 95. -/
def Fields.row5 (f : Fields) : Decoded :=
  match f.op.toNat % 16 with
  | 0 => if f.b23 then f.dualP (.setbyte (0b0#1 ++ BitVec.ofBool f.b24)) else f.dualP (.getbyte (0b0#1 ++ BitVec.ofBool f.b24))
  | 1 => if f.b23 then f.dualP (.setbyte (0b1#1 ++ BitVec.ofBool f.b24)) else f.dualP (.getbyte (0b1#1 ++ BitVec.ofBool f.b24))
  | 2 => match f.b24, f.b23 with
    | false, false => f.dualP .setbyts
    | false, true => f.dualP .movbyts
    | true, false => f.dualP .packrgb
    | true, true => f.dualP .unpkrgb
  | 3 => match f.b24, f.b23 with
    | false, false => f.dualP .addpix
    | false, true => f.dualP .mulpix
    | true, false => f.dualP .blnpix
    | true, true => f.dualP .mixpix
  | 4 => f.dual .jmpsw
  | 5 => f.dual .jmpswd
  | 6 => match f.b24, f.b23 with
    | false, false => f.dualP .ijz
    | false, true => f.dualP .ijzd
    | true, false => f.dualP .ijnz
    | true, true => f.dualP .ijnzd
  | 7 => match f.b24, f.b23 with
    | false, false => f.dualP .djz
    | false, true => f.dualP .djzd
    | true, false => f.dualP .djnz
    | true, true => f.dualP .djnzd
  | 8 => f.dual .testb
  | 9 => f.dual .testn
  | 10 => f.dual .test
  | 11 => f.dual .cmp
  | 12 => f.dual .cmpx
  | 13 => f.dual .cmps
  | 14 => f.dual .cmpsx
  | _ => f.dual .cmpr

/-- Primary opcodes 96 to 111. -/
def Fields.row6 (f : Fields) : Decoded :=
  match f.op.toNat % 16 with
  | 0 => if f.b23 then .ok (.waitvidImm (0b00#2 ++ BitVec.ofBool f.b24 ++ f.d) ⟨f.b22, f.cond, f.s⟩) else f.dualP (.coginit (0b00#2 ++ BitVec.ofBool f.b24))
  | 1 => if f.b23 then .ok (.waitvidImm (0b01#2 ++ BitVec.ofBool f.b24 ++ f.d) ⟨f.b22, f.cond, f.s⟩) else f.dualP (.coginit (0b01#2 ++ BitVec.ofBool f.b24))
  | 2 => if f.b23 then .ok (.waitvidImm (0b10#2 ++ BitVec.ofBool f.b24 ++ f.d) ⟨f.b22, f.cond, f.s⟩) else f.dualP (.coginit (0b10#2 ++ BitVec.ofBool f.b24))
  | 3 => if f.b23 then if f.b24 then f.dualP .waitvid else .ok (.waitvidImm (0b11#2 ++ BitVec.ofBool f.b24 ++ f.d) ⟨f.b22, f.cond, f.s⟩) else f.dualP (.coginit (0b11#2 ++ BitVec.ofBool f.b24))
  | 4 => f.dualC (.waitpeq (0b0#1 ++ BitVec.ofBool f.b24))
  | 5 => f.dualC (.waitpeq (0b1#1 ++ BitVec.ofBool f.b24))
  | 6 => f.dualC (.waitpne (0b0#1 ++ BitVec.ofBool f.b24))
  | 7 => f.dualC (.waitpne (0b1#1 ++ BitVec.ofBool f.b24))
  | 8 => if f.b24 then f.dualL .wrword else f.dualL .wrbyte
  | 9 => if f.b24 then f.dualL .frac else f.dualL .wrlong
  | 10 => if f.b24 then f.dualL .wrauxr else f.dualL .wraux
  | 11 => if f.b24 then f.dualL .setaccb else f.dualL .setacca
  | 12 => if f.b24 then f.dualL .macb else f.dualL .maca
  | 13 => if f.b24 then f.dualL .mul32u else f.dualL .mul32
  | 14 => if f.b24 then f.dualL .div32u else f.dualL .div32
  | _ => if f.b24 then f.dualL .div64u else f.dualL .div64

/-- Primary opcodes 112 to 127. -/
def Fields.row7 (f : Fields) : Decoded :=
  match f.op.toNat % 16 with
  | 0 => if f.b24 then f.dualL .qsincos else f.dualL .sqrt64
  | 1 => if f.b24 then f.dualL .qrotate else f.dualL .qarctan
  | 2 => if f.b24 then f.dualL .setserb else f.dualL .setsera
  | 3 => if f.b24 then f.dualL .setwavs else f.dualL .setctrs
  | 4 => if f.b24 then f.dualL .setphss else f.dualL .setfrqs
  | 5 => if f.b24 then f.dualL .subphss else f.dualL .addphss
  | 6 => if f.b24 then f.dualL .jpd else f.dualL .jp
  | 7 => if f.b24 then f.dualL .jnpd else f.dualL .jnp
  | 8 => f.dualL (.cfgpins (0b0#1 ++ BitVec.ofBool f.b24))
  | 9 => if f.b24 then f.dualL .jmptask else f.dualL (.cfgpins 0b10#2)
  | 10 => if f.b24 then f.dualL .setmix else f.dualL .setxfr
  | 11 => match f.b24, f.b23 with
    | false, false => f.dualP .jz
    | false, true => f.dualP .jzd
    | true, false => f.dualP .jnz
    | true, true => f.dualP .jnzd
  | 12 => match f.b24, f.b23 with
    | false, false => f.dualP .locbase
    | false, true => f.dualP .locbyte
    | true, false => f.dualP .locword
    | true, true => f.dualP .loclong
  | 13 => match f.b24, f.b23, f.b22 with
    | false, false, _ => f.dualP .jmplist
    | false, true, false => .ok (.locinst ⟨f.cond, f.d, f.s⟩)
    | false, true, true => .ok (.reps (f.cond ++ (f.d ++ f.s.extractLsb' 6 3)) (f.s.extractLsb' 0 6))
    | true, false, _ => .ok (.augs (BitVec.ofBool f.b22 ++ (f.cond ++ (f.d ++ f.s))))
    | true, true, _ => .ok (.augd (BitVec.ofBool f.b22 ++ (f.cond ++ (f.d ++ f.s))))
  | 14 => f.big16
  | _ => f.single

/-- The row a word's fields match (R195, R196). -/
def decodeFields (f : Fields) : Decoded :=
  match f.op.toNat / 16 with
  | 0 => f.row0
  | 1 => f.row1
  | 2 => f.row2
  | 3 => f.row3
  | 4 => f.row4
  | 5 => f.row5
  | 6 => f.row6
  | _ => f.row7

/-- The name R198 and R202 give a word of another row, where they give one (log 46). -/
def Instr.spell : Instr → Instr
  | .rdbyte f => if f = ⟨false, false, false, 0, 0, 0⟩ then .nop else .rdbyte f
  | .wrlong f =>
    if f.i && f.s == 0x0C1#9 then .pusha ⟨f.l, f.cond, f.d⟩
    else if f.i && f.s == 0x1C1#9 then .pushb ⟨f.l, f.cond, f.d⟩ else .wrlong f
  | .rdlong f =>
    if f.i && f.s == 0x0BF#9 then .popa ⟨f.wz, f.wc, f.cond, f.d⟩
    else if f.i && f.s == 0x1BF#9 then .popb ⟨f.wz, f.wc, f.cond, f.d⟩ else .rdlong f
  | .wraux f => if f.i && f.s == 0x161#9 then .pushx ⟨f.l, f.cond, f.d⟩ else .wraux f
  | .wrauxr f => if f.i && f.s == 0x1E1#9 then .pushy ⟨f.l, f.cond, f.d⟩ else .wrauxr f
  | .rdaux f => if f.i && f.s == 0x15F#9 then .popx ⟨f.wz, f.wc, f.cond, f.d⟩ else .rdaux f
  | .rdauxr f => if f.i && f.s == 0x1DF#9 then .popy ⟨f.wz, f.wc, f.cond, f.d⟩ else .rdauxr f
  | .jmpsw f => if f = ⟨true, true, false, 0x3, 0x1F3, 0x1F3⟩ then .switch else .jmpsw f
  | .jmpswd f => if f = ⟨true, true, false, 0x3, 0x1F3, 0x1F3⟩ then .switchd else .jmpswd f
  | i => i

/-- The instruction a word is, or why it is none. -/
def decode (w : Word) : Decoded := (decodeFields (Fields.split w)).map Instr.spell

/-- A long from its four bytes, the lowest address first (R123, R170). -/
def longOfBytes (b0 b1 b2 b3 : Byte) : Word := b3 ++ (b2 ++ (b1 ++ b0))

/-- The instruction at the head of a byte string, with the bytes after it; none where there are fewer than four
bytes or the word is of no row. -/
def decodeBytes : List Byte → Option (Instr × List Byte)
  | b0 :: b1 :: b2 :: b3 :: rest =>
    match decode (longOfBytes b0 b1 b2 b3) with
    | .ok i => some (i, rest)
    | .error _ => none
  | _ => none

/-- The four bytes of a long as hub memory stores it, the lowest address first (R123). -/
def bytesOfLong (w : Word) : List Byte :=
  [w.extractLsb' 0 8, w.extractLsb' 8 8, w.extractLsb' 16 8, w.extractLsb' 24 8]

/-- The host's question: the instruction whose bits are `w`, laid out in bytes and read by the decoder. -/
def decodeTableWord (_nbits w : Nat) : Option Instr :=
  (decodeBytes (bytesOfLong (BitVec.ofNat 32 w))).map Prod.fst

end

/-! ### The encoder -/

/-- The fields the encoding of each row gives its operands (R190 to R194). -/
def Instr.fields : Instr → Fields
  | .rdbyte f => ⟨0b0000000#7, f.wz, f.wc, f.i, f.cond, f.d, f.s⟩
  | .rdbytec f => ⟨0b0000001#7, f.wz, f.wc, f.i, f.cond, f.d, f.s⟩
  | .rdword f => ⟨0b0000010#7, f.wz, f.wc, f.i, f.cond, f.d, f.s⟩
  | .rdwordc f => ⟨0b0000011#7, f.wz, f.wc, f.i, f.cond, f.d, f.s⟩
  | .rdlong f => ⟨0b0000100#7, f.wz, f.wc, f.i, f.cond, f.d, f.s⟩
  | .rdlongc f => ⟨0b0000101#7, f.wz, f.wc, f.i, f.cond, f.d, f.s⟩
  | .rdaux f => ⟨0b0000110#7, f.wz, f.wc, f.i, f.cond, f.d, f.s⟩
  | .rdauxr f => ⟨0b0000111#7, f.wz, f.wc, f.i, f.cond, f.d, f.s⟩
  | .isob f => ⟨0b0001000#7, f.wz, f.wc, f.i, f.cond, f.d, f.s⟩
  | .notb f => ⟨0b0001001#7, f.wz, f.wc, f.i, f.cond, f.d, f.s⟩
  | .clrb f => ⟨0b0001010#7, f.wz, f.wc, f.i, f.cond, f.d, f.s⟩
  | .setb f => ⟨0b0001011#7, f.wz, f.wc, f.i, f.cond, f.d, f.s⟩
  | .setbc f => ⟨0b0001100#7, f.wz, f.wc, f.i, f.cond, f.d, f.s⟩
  | .setbnc f => ⟨0b0001101#7, f.wz, f.wc, f.i, f.cond, f.d, f.s⟩
  | .setbz f => ⟨0b0001110#7, f.wz, f.wc, f.i, f.cond, f.d, f.s⟩
  | .setbnz f => ⟨0b0001111#7, f.wz, f.wc, f.i, f.cond, f.d, f.s⟩
  | .andn f => ⟨0b0010000#7, f.wz, f.wc, f.i, f.cond, f.d, f.s⟩
  | .and f => ⟨0b0010001#7, f.wz, f.wc, f.i, f.cond, f.d, f.s⟩
  | .or f => ⟨0b0010010#7, f.wz, f.wc, f.i, f.cond, f.d, f.s⟩
  | .xor f => ⟨0b0010011#7, f.wz, f.wc, f.i, f.cond, f.d, f.s⟩
  | .muxc f => ⟨0b0010100#7, f.wz, f.wc, f.i, f.cond, f.d, f.s⟩
  | .muxnc f => ⟨0b0010101#7, f.wz, f.wc, f.i, f.cond, f.d, f.s⟩
  | .muxz f => ⟨0b0010110#7, f.wz, f.wc, f.i, f.cond, f.d, f.s⟩
  | .muxnz f => ⟨0b0010111#7, f.wz, f.wc, f.i, f.cond, f.d, f.s⟩
  | .ror f => ⟨0b0011000#7, f.wz, f.wc, f.i, f.cond, f.d, f.s⟩
  | .rol f => ⟨0b0011001#7, f.wz, f.wc, f.i, f.cond, f.d, f.s⟩
  | .shr f => ⟨0b0011010#7, f.wz, f.wc, f.i, f.cond, f.d, f.s⟩
  | .shl f => ⟨0b0011011#7, f.wz, f.wc, f.i, f.cond, f.d, f.s⟩
  | .rcr f => ⟨0b0011100#7, f.wz, f.wc, f.i, f.cond, f.d, f.s⟩
  | .rcl f => ⟨0b0011101#7, f.wz, f.wc, f.i, f.cond, f.d, f.s⟩
  | .sar f => ⟨0b0011110#7, f.wz, f.wc, f.i, f.cond, f.d, f.s⟩
  | .rev f => ⟨0b0011111#7, f.wz, f.wc, f.i, f.cond, f.d, f.s⟩
  | .mov f => ⟨0b0100000#7, f.wz, f.wc, f.i, f.cond, f.d, f.s⟩
  | .not f => ⟨0b0100001#7, f.wz, f.wc, f.i, f.cond, f.d, f.s⟩
  | .abs f => ⟨0b0100010#7, f.wz, f.wc, f.i, f.cond, f.d, f.s⟩
  | .neg f => ⟨0b0100011#7, f.wz, f.wc, f.i, f.cond, f.d, f.s⟩
  | .negc f => ⟨0b0100100#7, f.wz, f.wc, f.i, f.cond, f.d, f.s⟩
  | .negnc f => ⟨0b0100101#7, f.wz, f.wc, f.i, f.cond, f.d, f.s⟩
  | .negz f => ⟨0b0100110#7, f.wz, f.wc, f.i, f.cond, f.d, f.s⟩
  | .negnz f => ⟨0b0100111#7, f.wz, f.wc, f.i, f.cond, f.d, f.s⟩
  | .add f => ⟨0b0101000#7, f.wz, f.wc, f.i, f.cond, f.d, f.s⟩
  | .sub f => ⟨0b0101001#7, f.wz, f.wc, f.i, f.cond, f.d, f.s⟩
  | .addx f => ⟨0b0101010#7, f.wz, f.wc, f.i, f.cond, f.d, f.s⟩
  | .subx f => ⟨0b0101011#7, f.wz, f.wc, f.i, f.cond, f.d, f.s⟩
  | .adds f => ⟨0b0101100#7, f.wz, f.wc, f.i, f.cond, f.d, f.s⟩
  | .subs f => ⟨0b0101101#7, f.wz, f.wc, f.i, f.cond, f.d, f.s⟩
  | .addsx f => ⟨0b0101110#7, f.wz, f.wc, f.i, f.cond, f.d, f.s⟩
  | .subsx f => ⟨0b0101111#7, f.wz, f.wc, f.i, f.cond, f.d, f.s⟩
  | .sumc f => ⟨0b0110000#7, f.wz, f.wc, f.i, f.cond, f.d, f.s⟩
  | .sumnc f => ⟨0b0110001#7, f.wz, f.wc, f.i, f.cond, f.d, f.s⟩
  | .sumz f => ⟨0b0110010#7, f.wz, f.wc, f.i, f.cond, f.d, f.s⟩
  | .sumnz f => ⟨0b0110011#7, f.wz, f.wc, f.i, f.cond, f.d, f.s⟩
  | .min f => ⟨0b0110100#7, f.wz, f.wc, f.i, f.cond, f.d, f.s⟩
  | .max f => ⟨0b0110101#7, f.wz, f.wc, f.i, f.cond, f.d, f.s⟩
  | .mins f => ⟨0b0110110#7, f.wz, f.wc, f.i, f.cond, f.d, f.s⟩
  | .maxs f => ⟨0b0110111#7, f.wz, f.wc, f.i, f.cond, f.d, f.s⟩
  | .addabs f => ⟨0b0111000#7, f.wz, f.wc, f.i, f.cond, f.d, f.s⟩
  | .subabs f => ⟨0b0111001#7, f.wz, f.wc, f.i, f.cond, f.d, f.s⟩
  | .incmod f => ⟨0b0111010#7, f.wz, f.wc, f.i, f.cond, f.d, f.s⟩
  | .decmod f => ⟨0b0111011#7, f.wz, f.wc, f.i, f.cond, f.d, f.s⟩
  | .cmpsub f => ⟨0b0111100#7, f.wz, f.wc, f.i, f.cond, f.d, f.s⟩
  | .subr f => ⟨0b0111101#7, f.wz, f.wc, f.i, f.cond, f.d, f.s⟩
  | .mul f => ⟨0b0111110#7, f.wz, f.wc, f.i, f.cond, f.d, f.s⟩
  | .scl f => ⟨0b0111111#7, f.wz, f.wc, f.i, f.cond, f.d, f.s⟩
  | .decod2 f => ⟨0b1000000#7, f.wz, f.wc, f.i, f.cond, f.d, f.s⟩
  | .decod3 f => ⟨0b1000001#7, f.wz, f.wc, f.i, f.cond, f.d, f.s⟩
  | .decod4 f => ⟨0b1000010#7, f.wz, f.wc, f.i, f.cond, f.d, f.s⟩
  | .decod5 f => ⟨0b1000011#7, f.wz, f.wc, f.i, f.cond, f.d, f.s⟩
  | .encod f => ⟨0b1000100#7, f.wz, false, f.i, f.cond, f.d, f.s⟩
  | .blmask f => ⟨0b1000100#7, f.wz, true, f.i, f.cond, f.d, f.s⟩
  | .onecnt f => ⟨0b1000101#7, f.wz, false, f.i, f.cond, f.d, f.s⟩
  | .zercnt f => ⟨0b1000101#7, f.wz, true, f.i, f.cond, f.d, f.s⟩
  | .incpat f => ⟨0b1000110#7, false, f.wc, f.i, f.cond, f.d, f.s⟩
  | .decpat f => ⟨0b1000110#7, true, f.wc, f.i, f.cond, f.d, f.s⟩
  | .splitb f => ⟨0b1000111#7, false, false, f.i, f.cond, f.d, f.s⟩
  | .mergeb f => ⟨0b1000111#7, false, true, f.i, f.cond, f.d, f.s⟩
  | .splitw f => ⟨0b1000111#7, true, false, f.i, f.cond, f.d, f.s⟩
  | .mergew f => ⟨0b1000111#7, true, true, f.i, f.cond, f.d, f.s⟩
  | .getnib n f => ⟨0b10010#5 ++ n.extractLsb' 1 2, n.getLsbD 0, false, f.i, f.cond, f.d, f.s⟩
  | .setnib n f => ⟨0b10010#5 ++ n.extractLsb' 1 2, n.getLsbD 0, true, f.i, f.cond, f.d, f.s⟩
  | .getword n f => ⟨0b1001100#7, n.getLsbD 0, false, f.i, f.cond, f.d, f.s⟩
  | .setword n f => ⟨0b1001100#7, n.getLsbD 0, true, f.i, f.cond, f.d, f.s⟩
  | .setwrds f => ⟨0b1001101#7, false, false, f.i, f.cond, f.d, f.s⟩
  | .rolnib f => ⟨0b1001101#7, false, true, f.i, f.cond, f.d, f.s⟩
  | .rolbyte f => ⟨0b1001101#7, true, false, f.i, f.cond, f.d, f.s⟩
  | .rolword f => ⟨0b1001101#7, true, true, f.i, f.cond, f.d, f.s⟩
  | .sets f => ⟨0b1001110#7, false, false, f.i, f.cond, f.d, f.s⟩
  | .setd f => ⟨0b1001110#7, false, true, f.i, f.cond, f.d, f.s⟩
  | .setx f => ⟨0b1001110#7, true, false, f.i, f.cond, f.d, f.s⟩
  | .seti f => ⟨0b1001110#7, true, true, f.i, f.cond, f.d, f.s⟩
  | .cognew f => ⟨0b1001111#7, false, f.wc, f.i, f.cond, f.d, f.s⟩
  | .waitcnt f => ⟨0b1001111#7, true, false, f.i, f.cond, f.d, f.s⟩
  | .waitcntWc f => ⟨0b1001111#7, true, true, f.i, f.cond, f.d, f.s⟩
  | .getbyte n f => ⟨0b101000#6 ++ n.extractLsb' 1 1, n.getLsbD 0, false, f.i, f.cond, f.d, f.s⟩
  | .setbyte n f => ⟨0b101000#6 ++ n.extractLsb' 1 1, n.getLsbD 0, true, f.i, f.cond, f.d, f.s⟩
  | .setbyts f => ⟨0b1010010#7, false, false, f.i, f.cond, f.d, f.s⟩
  | .movbyts f => ⟨0b1010010#7, false, true, f.i, f.cond, f.d, f.s⟩
  | .packrgb f => ⟨0b1010010#7, true, false, f.i, f.cond, f.d, f.s⟩
  | .unpkrgb f => ⟨0b1010010#7, true, true, f.i, f.cond, f.d, f.s⟩
  | .addpix f => ⟨0b1010011#7, false, false, f.i, f.cond, f.d, f.s⟩
  | .mulpix f => ⟨0b1010011#7, false, true, f.i, f.cond, f.d, f.s⟩
  | .blnpix f => ⟨0b1010011#7, true, false, f.i, f.cond, f.d, f.s⟩
  | .mixpix f => ⟨0b1010011#7, true, true, f.i, f.cond, f.d, f.s⟩
  | .jmpsw f => ⟨0b1010100#7, f.wz, f.wc, f.i, f.cond, f.d, f.s⟩
  | .jmpswd f => ⟨0b1010101#7, f.wz, f.wc, f.i, f.cond, f.d, f.s⟩
  | .ijz f => ⟨0b1010110#7, false, false, f.i, f.cond, f.d, f.s⟩
  | .ijzd f => ⟨0b1010110#7, false, true, f.i, f.cond, f.d, f.s⟩
  | .ijnz f => ⟨0b1010110#7, true, false, f.i, f.cond, f.d, f.s⟩
  | .ijnzd f => ⟨0b1010110#7, true, true, f.i, f.cond, f.d, f.s⟩
  | .djz f => ⟨0b1010111#7, false, false, f.i, f.cond, f.d, f.s⟩
  | .djzd f => ⟨0b1010111#7, false, true, f.i, f.cond, f.d, f.s⟩
  | .djnz f => ⟨0b1010111#7, true, false, f.i, f.cond, f.d, f.s⟩
  | .djnzd f => ⟨0b1010111#7, true, true, f.i, f.cond, f.d, f.s⟩
  | .testb f => ⟨0b1011000#7, f.wz, f.wc, f.i, f.cond, f.d, f.s⟩
  | .testn f => ⟨0b1011001#7, f.wz, f.wc, f.i, f.cond, f.d, f.s⟩
  | .test f => ⟨0b1011010#7, f.wz, f.wc, f.i, f.cond, f.d, f.s⟩
  | .cmp f => ⟨0b1011011#7, f.wz, f.wc, f.i, f.cond, f.d, f.s⟩
  | .cmpx f => ⟨0b1011100#7, f.wz, f.wc, f.i, f.cond, f.d, f.s⟩
  | .cmps f => ⟨0b1011101#7, f.wz, f.wc, f.i, f.cond, f.d, f.s⟩
  | .cmpsx f => ⟨0b1011110#7, f.wz, f.wc, f.i, f.cond, f.d, f.s⟩
  | .cmpr f => ⟨0b1011111#7, f.wz, f.wc, f.i, f.cond, f.d, f.s⟩
  | .coginit n f => ⟨0b11000#5 ++ n.extractLsb' 1 2, n.getLsbD 0, false, f.i, f.cond, f.d, f.s⟩
  | .waitvidImm n f => ⟨0b11000#5 ++ n.extractLsb' 10 2, n.getLsbD 9, true, f.i, f.cond, n.extractLsb' 0 9, f.s⟩
  | .waitvid f => ⟨0b1100011#7, true, true, f.i, f.cond, f.d, f.s⟩
  | .waitpeq n f => ⟨0b110010#6 ++ n.extractLsb' 1 1, n.getLsbD 0, f.wc, f.i, f.cond, f.d, f.s⟩
  | .waitpne n f => ⟨0b110011#6 ++ n.extractLsb' 1 1, n.getLsbD 0, f.wc, f.i, f.cond, f.d, f.s⟩
  | .wrbyte f => ⟨0b1101000#7, false, f.l, f.i, f.cond, f.d, f.s⟩
  | .wrword f => ⟨0b1101000#7, true, f.l, f.i, f.cond, f.d, f.s⟩
  | .wrlong f => ⟨0b1101001#7, false, f.l, f.i, f.cond, f.d, f.s⟩
  | .frac f => ⟨0b1101001#7, true, f.l, f.i, f.cond, f.d, f.s⟩
  | .wraux f => ⟨0b1101010#7, false, f.l, f.i, f.cond, f.d, f.s⟩
  | .wrauxr f => ⟨0b1101010#7, true, f.l, f.i, f.cond, f.d, f.s⟩
  | .setacca f => ⟨0b1101011#7, false, f.l, f.i, f.cond, f.d, f.s⟩
  | .setaccb f => ⟨0b1101011#7, true, f.l, f.i, f.cond, f.d, f.s⟩
  | .maca f => ⟨0b1101100#7, false, f.l, f.i, f.cond, f.d, f.s⟩
  | .macb f => ⟨0b1101100#7, true, f.l, f.i, f.cond, f.d, f.s⟩
  | .mul32 f => ⟨0b1101101#7, false, f.l, f.i, f.cond, f.d, f.s⟩
  | .mul32u f => ⟨0b1101101#7, true, f.l, f.i, f.cond, f.d, f.s⟩
  | .div32 f => ⟨0b1101110#7, false, f.l, f.i, f.cond, f.d, f.s⟩
  | .div32u f => ⟨0b1101110#7, true, f.l, f.i, f.cond, f.d, f.s⟩
  | .div64 f => ⟨0b1101111#7, false, f.l, f.i, f.cond, f.d, f.s⟩
  | .div64u f => ⟨0b1101111#7, true, f.l, f.i, f.cond, f.d, f.s⟩
  | .sqrt64 f => ⟨0b1110000#7, false, f.l, f.i, f.cond, f.d, f.s⟩
  | .qsincos f => ⟨0b1110000#7, true, f.l, f.i, f.cond, f.d, f.s⟩
  | .qarctan f => ⟨0b1110001#7, false, f.l, f.i, f.cond, f.d, f.s⟩
  | .qrotate f => ⟨0b1110001#7, true, f.l, f.i, f.cond, f.d, f.s⟩
  | .setsera f => ⟨0b1110010#7, false, f.l, f.i, f.cond, f.d, f.s⟩
  | .setserb f => ⟨0b1110010#7, true, f.l, f.i, f.cond, f.d, f.s⟩
  | .setctrs f => ⟨0b1110011#7, false, f.l, f.i, f.cond, f.d, f.s⟩
  | .setwavs f => ⟨0b1110011#7, true, f.l, f.i, f.cond, f.d, f.s⟩
  | .setfrqs f => ⟨0b1110100#7, false, f.l, f.i, f.cond, f.d, f.s⟩
  | .setphss f => ⟨0b1110100#7, true, f.l, f.i, f.cond, f.d, f.s⟩
  | .addphss f => ⟨0b1110101#7, false, f.l, f.i, f.cond, f.d, f.s⟩
  | .subphss f => ⟨0b1110101#7, true, f.l, f.i, f.cond, f.d, f.s⟩
  | .jp f => ⟨0b1110110#7, false, f.l, f.i, f.cond, f.d, f.s⟩
  | .jpd f => ⟨0b1110110#7, true, f.l, f.i, f.cond, f.d, f.s⟩
  | .jnp f => ⟨0b1110111#7, false, f.l, f.i, f.cond, f.d, f.s⟩
  | .jnpd f => ⟨0b1110111#7, true, f.l, f.i, f.cond, f.d, f.s⟩
  | .cfgpins n f => ⟨0b111100#6 ++ n.extractLsb' 1 1, n.getLsbD 0, f.l, f.i, f.cond, f.d, f.s⟩
  | .jmptask f => ⟨0b1111001#7, true, f.l, f.i, f.cond, f.d, f.s⟩
  | .setxfr f => ⟨0b1111010#7, false, f.l, f.i, f.cond, f.d, f.s⟩
  | .setmix f => ⟨0b1111010#7, true, f.l, f.i, f.cond, f.d, f.s⟩
  | .jz f => ⟨0b1111011#7, false, false, f.i, f.cond, f.d, f.s⟩
  | .jzd f => ⟨0b1111011#7, false, true, f.i, f.cond, f.d, f.s⟩
  | .jnz f => ⟨0b1111011#7, true, false, f.i, f.cond, f.d, f.s⟩
  | .jnzd f => ⟨0b1111011#7, true, true, f.i, f.cond, f.d, f.s⟩
  | .locbase f => ⟨0b1111100#7, false, false, f.i, f.cond, f.d, f.s⟩
  | .locbyte f => ⟨0b1111100#7, false, true, f.i, f.cond, f.d, f.s⟩
  | .locword f => ⟨0b1111100#7, true, false, f.i, f.cond, f.d, f.s⟩
  | .loclong f => ⟨0b1111100#7, true, true, f.i, f.cond, f.d, f.s⟩
  | .jmplist f => ⟨0b1111101#7, false, false, f.i, f.cond, f.d, f.s⟩
  | .locinst f => ⟨0b1111101#7, false, true, false, f.cond, f.d, f.s⟩
  | .reps n i => ⟨0b1111101#7, false, true, true, n.extractLsb' 12 4, n.extractLsb' 3 9, n.extractLsb' 0 3 ++ i⟩
  | .augs n => ⟨0b1111101#7, true, false, n.getLsbD 22, n.extractLsb' 18 4, n.extractLsb' 9 9, n.extractLsb' 0 9⟩
  | .augd n => ⟨0b1111101#7, true, true, n.getLsbD 22, n.extractLsb' 18 4, n.extractLsb' 9 9, n.extractLsb' 0 9⟩
  | .fixinda f => ⟨0b1111110#7, false, false, false, 0b0001#4, f.d, f.s⟩
  | .fixindb f => ⟨0b1111110#7, false, false, false, 0b0100#4, f.d, f.s⟩
  | .fixinds f => ⟨0b1111110#7, false, false, false, 0b0101#4, f.d, f.s⟩
  | .setindaAbs f => ⟨0b1111110#7, false, false, false, 0b0010#4, f.d, f.s⟩
  | .setindaRel f => ⟨0b1111110#7, false, false, false, 0b0011#4, f.d, f.s⟩
  | .setindbAbs f => ⟨0b1111110#7, false, false, false, 0b1000#4, f.d, f.s⟩
  | .setindbRel f => ⟨0b1111110#7, false, false, false, 0b1100#4, f.d, f.s⟩
  | .setindsAbsAbs f => ⟨0b1111110#7, false, false, false, 0b1010#4, f.d, f.s⟩
  | .setindsAbsRel f => ⟨0b1111110#7, false, false, false, 0b1011#4, f.d, f.s⟩
  | .setindsRelAbs f => ⟨0b1111110#7, false, false, false, 0b1110#4, f.d, f.s⟩
  | .setindsRelRel f => ⟨0b1111110#7, false, false, false, 0b1111#4, f.d, f.s⟩
  | .locptraAbs f => ⟨0b1111110#7, false, false, true, f.cond, 0b00#2 ++ f.n.extractLsb' 9 7, f.n.extractLsb' 0 9⟩
  | .locptraRel f => ⟨0b1111110#7, false, false, true, f.cond, 0b01#2 ++ f.n.extractLsb' 9 7, f.n.extractLsb' 0 9⟩
  | .locptrbAbs f => ⟨0b1111110#7, false, false, true, f.cond, 0b10#2 ++ f.n.extractLsb' 9 7, f.n.extractLsb' 0 9⟩
  | .locptrbRel f => ⟨0b1111110#7, false, false, true, f.cond, 0b11#2 ++ f.n.extractLsb' 9 7, f.n.extractLsb' 0 9⟩
  | .jmpAbs f => ⟨0b1111110#7, false, true, false, f.cond, 0b00#2 ++ f.n.extractLsb' 9 7, f.n.extractLsb' 0 9⟩
  | .jmpRel f => ⟨0b1111110#7, false, true, false, f.cond, 0b01#2 ++ f.n.extractLsb' 9 7, f.n.extractLsb' 0 9⟩
  | .jmpdAbs f => ⟨0b1111110#7, false, true, false, f.cond, 0b10#2 ++ f.n.extractLsb' 9 7, f.n.extractLsb' 0 9⟩
  | .jmpdRel f => ⟨0b1111110#7, false, true, false, f.cond, 0b11#2 ++ f.n.extractLsb' 9 7, f.n.extractLsb' 0 9⟩
  | .callAbs f => ⟨0b1111110#7, false, true, true, f.cond, 0b00#2 ++ f.n.extractLsb' 9 7, f.n.extractLsb' 0 9⟩
  | .callRel f => ⟨0b1111110#7, false, true, true, f.cond, 0b01#2 ++ f.n.extractLsb' 9 7, f.n.extractLsb' 0 9⟩
  | .calldAbs f => ⟨0b1111110#7, false, true, true, f.cond, 0b10#2 ++ f.n.extractLsb' 9 7, f.n.extractLsb' 0 9⟩
  | .calldRel f => ⟨0b1111110#7, false, true, true, f.cond, 0b11#2 ++ f.n.extractLsb' 9 7, f.n.extractLsb' 0 9⟩
  | .callaAbs f => ⟨0b1111110#7, true, false, false, f.cond, 0b00#2 ++ f.n.extractLsb' 9 7, f.n.extractLsb' 0 9⟩
  | .callaRel f => ⟨0b1111110#7, true, false, false, f.cond, 0b01#2 ++ f.n.extractLsb' 9 7, f.n.extractLsb' 0 9⟩
  | .calladAbs f => ⟨0b1111110#7, true, false, false, f.cond, 0b10#2 ++ f.n.extractLsb' 9 7, f.n.extractLsb' 0 9⟩
  | .calladRel f => ⟨0b1111110#7, true, false, false, f.cond, 0b11#2 ++ f.n.extractLsb' 9 7, f.n.extractLsb' 0 9⟩
  | .callbAbs f => ⟨0b1111110#7, true, false, true, f.cond, 0b00#2 ++ f.n.extractLsb' 9 7, f.n.extractLsb' 0 9⟩
  | .callbRel f => ⟨0b1111110#7, true, false, true, f.cond, 0b01#2 ++ f.n.extractLsb' 9 7, f.n.extractLsb' 0 9⟩
  | .callbdAbs f => ⟨0b1111110#7, true, false, true, f.cond, 0b10#2 ++ f.n.extractLsb' 9 7, f.n.extractLsb' 0 9⟩
  | .callbdRel f => ⟨0b1111110#7, true, false, true, f.cond, 0b11#2 ++ f.n.extractLsb' 9 7, f.n.extractLsb' 0 9⟩
  | .callxAbs f => ⟨0b1111110#7, true, true, false, f.cond, 0b00#2 ++ f.n.extractLsb' 9 7, f.n.extractLsb' 0 9⟩
  | .callxRel f => ⟨0b1111110#7, true, true, false, f.cond, 0b01#2 ++ f.n.extractLsb' 9 7, f.n.extractLsb' 0 9⟩
  | .callxdAbs f => ⟨0b1111110#7, true, true, false, f.cond, 0b10#2 ++ f.n.extractLsb' 9 7, f.n.extractLsb' 0 9⟩
  | .callxdRel f => ⟨0b1111110#7, true, true, false, f.cond, 0b11#2 ++ f.n.extractLsb' 9 7, f.n.extractLsb' 0 9⟩
  | .callyAbs f => ⟨0b1111110#7, true, true, true, f.cond, 0b00#2 ++ f.n.extractLsb' 9 7, f.n.extractLsb' 0 9⟩
  | .callyRel f => ⟨0b1111110#7, true, true, true, f.cond, 0b01#2 ++ f.n.extractLsb' 9 7, f.n.extractLsb' 0 9⟩
  | .callydAbs f => ⟨0b1111110#7, true, true, true, f.cond, 0b10#2 ++ f.n.extractLsb' 9 7, f.n.extractLsb' 0 9⟩
  | .callydRel f => ⟨0b1111110#7, true, true, true, f.cond, 0b11#2 ++ f.n.extractLsb' 9 7, f.n.extractLsb' 0 9⟩
  | .cogid f => ⟨0b1111111#7, f.wz, f.wc, false, f.cond, f.d, 0b000000000#9⟩
  | .taskid f => ⟨0b1111111#7, f.wz, f.wc, false, f.cond, f.d, 0b000000001#9⟩
  | .locknew f => ⟨0b1111111#7, f.wz, f.wc, false, f.cond, f.d, 0b000000010#9⟩
  | .getlfsr f => ⟨0b1111111#7, f.wz, f.wc, false, f.cond, f.d, 0b000000011#9⟩
  | .getcnt f => ⟨0b1111111#7, f.wz, f.wc, false, f.cond, f.d, 0b000000100#9⟩
  | .getcntx f => ⟨0b1111111#7, f.wz, f.wc, false, f.cond, f.d, 0b000000101#9⟩
  | .getacal f => ⟨0b1111111#7, f.wz, f.wc, false, f.cond, f.d, 0b000000110#9⟩
  | .getacah f => ⟨0b1111111#7, f.wz, f.wc, false, f.cond, f.d, 0b000000111#9⟩
  | .getacbl f => ⟨0b1111111#7, f.wz, f.wc, false, f.cond, f.d, 0b000001000#9⟩
  | .getacbh f => ⟨0b1111111#7, f.wz, f.wc, false, f.cond, f.d, 0b000001001#9⟩
  | .getptra f => ⟨0b1111111#7, f.wz, f.wc, false, f.cond, f.d, 0b000001010#9⟩
  | .getptrb f => ⟨0b1111111#7, f.wz, f.wc, false, f.cond, f.d, 0b000001011#9⟩
  | .getptrx f => ⟨0b1111111#7, f.wz, f.wc, false, f.cond, f.d, 0b000001100#9⟩
  | .getptry f => ⟨0b1111111#7, f.wz, f.wc, false, f.cond, f.d, 0b000001101#9⟩
  | .serina f => ⟨0b1111111#7, f.wz, f.wc, false, f.cond, f.d, 0b000001110#9⟩
  | .serinb f => ⟨0b1111111#7, f.wz, f.wc, false, f.cond, f.d, 0b000001111#9⟩
  | .getmull f => ⟨0b1111111#7, f.wz, f.wc, false, f.cond, f.d, 0b000010000#9⟩
  | .getmulh f => ⟨0b1111111#7, f.wz, f.wc, false, f.cond, f.d, 0b000010001#9⟩
  | .getdivq f => ⟨0b1111111#7, f.wz, f.wc, false, f.cond, f.d, 0b000010010#9⟩
  | .getdivr f => ⟨0b1111111#7, f.wz, f.wc, false, f.cond, f.d, 0b000010011#9⟩
  | .getsqrt f => ⟨0b1111111#7, f.wz, f.wc, false, f.cond, f.d, 0b000010100#9⟩
  | .getqx f => ⟨0b1111111#7, f.wz, f.wc, false, f.cond, f.d, 0b000010101#9⟩
  | .getqy f => ⟨0b1111111#7, f.wz, f.wc, false, f.cond, f.d, 0b000010110#9⟩
  | .getqz f => ⟨0b1111111#7, f.wz, f.wc, false, f.cond, f.d, 0b000010111#9⟩
  | .getphsa f => ⟨0b1111111#7, f.wz, f.wc, false, f.cond, f.d, 0b000011000#9⟩
  | .getphza f => ⟨0b1111111#7, f.wz, f.wc, false, f.cond, f.d, 0b000011001#9⟩
  | .getcosa f => ⟨0b1111111#7, f.wz, f.wc, false, f.cond, f.d, 0b000011010#9⟩
  | .getsina f => ⟨0b1111111#7, f.wz, f.wc, false, f.cond, f.d, 0b000011011#9⟩
  | .getphsb f => ⟨0b1111111#7, f.wz, f.wc, false, f.cond, f.d, 0b000011100#9⟩
  | .getphzb f => ⟨0b1111111#7, f.wz, f.wc, false, f.cond, f.d, 0b000011101#9⟩
  | .getcosb f => ⟨0b1111111#7, f.wz, f.wc, false, f.cond, f.d, 0b000011110#9⟩
  | .getsinb f => ⟨0b1111111#7, f.wz, f.wc, false, f.cond, f.d, 0b000011111#9⟩
  | .pushzc f => ⟨0b1111111#7, f.wz, f.wc, false, f.cond, f.d, 0b000100000#9⟩
  | .popzc f => ⟨0b1111111#7, f.wz, f.wc, false, f.cond, f.d, 0b000100001#9⟩
  | .subcnt f => ⟨0b1111111#7, f.wz, f.wc, false, f.cond, f.d, 0b000100010#9⟩
  | .getpix f => ⟨0b1111111#7, f.wz, f.wc, false, f.cond, f.d, 0b000100011#9⟩
  | .binbcd f => ⟨0b1111111#7, f.wz, f.wc, false, f.cond, f.d, 0b000100100#9⟩
  | .bcdbin f => ⟨0b1111111#7, f.wz, f.wc, false, f.cond, f.d, 0b000100101#9⟩
  | .bingry f => ⟨0b1111111#7, f.wz, f.wc, false, f.cond, f.d, 0b000100110#9⟩
  | .grybin f => ⟨0b1111111#7, f.wz, f.wc, false, f.cond, f.d, 0b000100111#9⟩
  | .eswap4 f => ⟨0b1111111#7, f.wz, f.wc, false, f.cond, f.d, 0b000101000#9⟩
  | .eswap8 f => ⟨0b1111111#7, f.wz, f.wc, false, f.cond, f.d, 0b000101001#9⟩
  | .seussf f => ⟨0b1111111#7, f.wz, f.wc, false, f.cond, f.d, 0b000101010#9⟩
  | .seussr f => ⟨0b1111111#7, f.wz, f.wc, false, f.cond, f.d, 0b000101011#9⟩
  | .incd f => ⟨0b1111111#7, f.wz, f.wc, false, f.cond, f.d, 0b000101100#9⟩
  | .decd f => ⟨0b1111111#7, f.wz, f.wc, false, f.cond, f.d, 0b000101101#9⟩
  | .incds f => ⟨0b1111111#7, f.wz, f.wc, false, f.cond, f.d, 0b000101110#9⟩
  | .decds f => ⟨0b1111111#7, f.wz, f.wc, false, f.cond, f.d, 0b000101111#9⟩
  | .pop f => ⟨0b1111111#7, f.wz, f.wc, false, f.cond, f.d, 0b000110000#9⟩
  | .repd i f => ⟨0b1111111#7, false, false, f.l, f.cond, f.d, 0b001#3 ++ i⟩
  | .repdInf i f => ⟨0b1111111#7, false, false, false, f.cond, 0x1FF, 0b001#3 ++ i⟩
  | .clkset f => ⟨0b1111111#7, false, false, f.l, f.cond, f.d, 0b010000000#9⟩
  | .cogstop f => ⟨0b1111111#7, false, false, f.l, f.cond, f.d, 0b010000001#9⟩
  | .lockset f => ⟨0b1111111#7, false, f.wc, f.l, f.cond, f.d, 0b010000010#9⟩
  | .lockclr f => ⟨0b1111111#7, false, f.wc, f.l, f.cond, f.d, 0b010000011#9⟩
  | .lockret f => ⟨0b1111111#7, false, false, f.l, f.cond, f.d, 0b010000100#9⟩
  | .rdwidec f => ⟨0b1111111#7, false, false, f.l, f.cond, f.d, 0b010000101#9⟩
  | .rdwide f => ⟨0b1111111#7, false, false, f.l, f.cond, f.d, 0b010000110#9⟩
  | .wrwide f => ⟨0b1111111#7, false, false, f.l, f.cond, f.d, 0b010000111#9⟩
  | .getp f => ⟨0b1111111#7, f.wz, f.wc, f.l, f.cond, f.d, 0b010001000#9⟩
  | .getnp f => ⟨0b1111111#7, f.wz, f.wc, f.l, f.cond, f.d, 0b010001001#9⟩
  | .serouta f => ⟨0b1111111#7, false, f.wc, f.l, f.cond, f.d, 0b010001010#9⟩
  | .seroutb f => ⟨0b1111111#7, false, f.wc, f.l, f.cond, f.d, 0b010001011#9⟩
  | .cmpcnt f => ⟨0b1111111#7, false, f.wc, f.l, f.cond, f.d, 0b010001100#9⟩
  | .waitpx f => ⟨0b1111111#7, false, f.wc, f.l, f.cond, f.d, 0b010001101#9⟩
  | .waitpr f => ⟨0b1111111#7, false, f.wc, f.l, f.cond, f.d, 0b010001110#9⟩
  | .waitpf f => ⟨0b1111111#7, false, f.wc, f.l, f.cond, f.d, 0b010001111#9⟩
  | .setzc f => ⟨0b1111111#7, f.wz, f.wc, f.l, f.cond, f.d, 0b010010000#9⟩
  | .setmap f => ⟨0b1111111#7, false, false, f.l, f.cond, f.d, 0b010010001#9⟩
  | .setxch f => ⟨0b1111111#7, false, false, f.l, f.cond, f.d, 0b010010010#9⟩
  | .settask f => ⟨0b1111111#7, false, false, f.l, f.cond, f.d, 0b010010011#9⟩
  | .setrace f => ⟨0b1111111#7, false, false, f.l, f.cond, f.d, 0b010010100#9⟩
  | .saracca f => ⟨0b1111111#7, false, false, f.l, f.cond, f.d, 0b010010101#9⟩
  | .saraccb f => ⟨0b1111111#7, false, false, f.l, f.cond, f.d, 0b010010110#9⟩
  | .saraccs f => ⟨0b1111111#7, false, false, f.l, f.cond, f.d, 0b010010111#9⟩
  | .setptra f => ⟨0b1111111#7, false, false, f.l, f.cond, f.d, 0b010011000#9⟩
  | .setptrb f => ⟨0b1111111#7, false, false, f.l, f.cond, f.d, 0b010011001#9⟩
  | .addptra f => ⟨0b1111111#7, false, false, f.l, f.cond, f.d, 0b010011010#9⟩
  | .addptrb f => ⟨0b1111111#7, false, false, f.l, f.cond, f.d, 0b010011011#9⟩
  | .subptra f => ⟨0b1111111#7, false, false, f.l, f.cond, f.d, 0b010011100#9⟩
  | .subptrb f => ⟨0b1111111#7, false, false, f.l, f.cond, f.d, 0b010011101#9⟩
  | .setwide f => ⟨0b1111111#7, false, false, f.l, f.cond, f.d, 0b010011110#9⟩
  | .setwidz f => ⟨0b1111111#7, false, false, f.l, f.cond, f.d, 0b010011111#9⟩
  | .setptrx f => ⟨0b1111111#7, false, false, f.l, f.cond, f.d, 0b010100000#9⟩
  | .setptry f => ⟨0b1111111#7, false, false, f.l, f.cond, f.d, 0b010100001#9⟩
  | .addptrx f => ⟨0b1111111#7, false, false, f.l, f.cond, f.d, 0b010100010#9⟩
  | .addptry f => ⟨0b1111111#7, false, false, f.l, f.cond, f.d, 0b010100011#9⟩
  | .subptrx f => ⟨0b1111111#7, false, false, f.l, f.cond, f.d, 0b010100100#9⟩
  | .subptry f => ⟨0b1111111#7, false, false, f.l, f.cond, f.d, 0b010100101#9⟩
  | .passcnt f => ⟨0b1111111#7, false, false, f.l, f.cond, f.d, 0b010100110#9⟩
  | .wait f => ⟨0b1111111#7, false, false, f.l, f.cond, f.d, 0b010100111#9⟩
  | .offp f => ⟨0b1111111#7, false, false, f.l, f.cond, f.d, 0b010101000#9⟩
  | .notp f => ⟨0b1111111#7, false, false, f.l, f.cond, f.d, 0b010101001#9⟩
  | .clrp f => ⟨0b1111111#7, false, false, f.l, f.cond, f.d, 0b010101010#9⟩
  | .setp f => ⟨0b1111111#7, false, false, f.l, f.cond, f.d, 0b010101011#9⟩
  | .setpc f => ⟨0b1111111#7, false, false, f.l, f.cond, f.d, 0b010101100#9⟩
  | .setpnc f => ⟨0b1111111#7, false, false, f.l, f.cond, f.d, 0b010101101#9⟩
  | .setpz f => ⟨0b1111111#7, false, false, f.l, f.cond, f.d, 0b010101110#9⟩
  | .setpnz f => ⟨0b1111111#7, false, false, f.l, f.cond, f.d, 0b010101111#9⟩
  | .div64d f => ⟨0b1111111#7, false, false, f.l, f.cond, f.d, 0b010110000#9⟩
  | .sqrt32 f => ⟨0b1111111#7, false, false, f.l, f.cond, f.d, 0b010110001#9⟩
  | .qlog f => ⟨0b1111111#7, false, false, f.l, f.cond, f.d, 0b010110010#9⟩
  | .qexp f => ⟨0b1111111#7, false, false, f.l, f.cond, f.d, 0b010110011#9⟩
  | .setqi f => ⟨0b1111111#7, false, false, f.l, f.cond, f.d, 0b010110100#9⟩
  | .setqz f => ⟨0b1111111#7, false, false, f.l, f.cond, f.d, 0b010110101#9⟩
  | .cfgdacs f => ⟨0b1111111#7, false, false, f.l, f.cond, f.d, 0b010110110#9⟩
  | .setdacs f => ⟨0b1111111#7, false, false, f.l, f.cond, f.d, 0b010110111#9⟩
  | .cfgdac0 f => ⟨0b1111111#7, false, false, f.l, f.cond, f.d, 0b010111000#9⟩
  | .cfgdac1 f => ⟨0b1111111#7, false, false, f.l, f.cond, f.d, 0b010111001#9⟩
  | .cfgdac2 f => ⟨0b1111111#7, false, false, f.l, f.cond, f.d, 0b010111010#9⟩
  | .cfgdac3 f => ⟨0b1111111#7, false, false, f.l, f.cond, f.d, 0b010111011#9⟩
  | .setdac0 f => ⟨0b1111111#7, false, false, f.l, f.cond, f.d, 0b010111100#9⟩
  | .setdac1 f => ⟨0b1111111#7, false, false, f.l, f.cond, f.d, 0b010111101#9⟩
  | .setdac2 f => ⟨0b1111111#7, false, false, f.l, f.cond, f.d, 0b010111110#9⟩
  | .setdac3 f => ⟨0b1111111#7, false, false, f.l, f.cond, f.d, 0b010111111#9⟩
  | .setctra f => ⟨0b1111111#7, false, false, f.l, f.cond, f.d, 0b011000000#9⟩
  | .setwava f => ⟨0b1111111#7, false, false, f.l, f.cond, f.d, 0b011000001#9⟩
  | .setfrqa f => ⟨0b1111111#7, false, false, f.l, f.cond, f.d, 0b011000010#9⟩
  | .setphsa f => ⟨0b1111111#7, false, false, f.l, f.cond, f.d, 0b011000011#9⟩
  | .addphsa f => ⟨0b1111111#7, false, false, f.l, f.cond, f.d, 0b011000100#9⟩
  | .subphsa f => ⟨0b1111111#7, false, false, f.l, f.cond, f.d, 0b011000101#9⟩
  | .setvid f => ⟨0b1111111#7, false, false, f.l, f.cond, f.d, 0b011000110#9⟩
  | .setvidy f => ⟨0b1111111#7, false, false, f.l, f.cond, f.d, 0b011000111#9⟩
  | .setctrb f => ⟨0b1111111#7, false, false, f.l, f.cond, f.d, 0b011001000#9⟩
  | .setwavb f => ⟨0b1111111#7, false, false, f.l, f.cond, f.d, 0b011001001#9⟩
  | .setfrqb f => ⟨0b1111111#7, false, false, f.l, f.cond, f.d, 0b011001010#9⟩
  | .setphsb f => ⟨0b1111111#7, false, false, f.l, f.cond, f.d, 0b011001011#9⟩
  | .addphsb f => ⟨0b1111111#7, false, false, f.l, f.cond, f.d, 0b011001100#9⟩
  | .subphsb f => ⟨0b1111111#7, false, false, f.l, f.cond, f.d, 0b011001101#9⟩
  | .setvidi f => ⟨0b1111111#7, false, false, f.l, f.cond, f.d, 0b011001110#9⟩
  | .setvidq f => ⟨0b1111111#7, false, false, f.l, f.cond, f.d, 0b011001111#9⟩
  | .setpix f => ⟨0b1111111#7, false, false, f.l, f.cond, f.d, 0b011010000#9⟩
  | .setpixz f => ⟨0b1111111#7, false, false, f.l, f.cond, f.d, 0b011010001#9⟩
  | .setpixu f => ⟨0b1111111#7, false, false, f.l, f.cond, f.d, 0b011010010#9⟩
  | .setpixv f => ⟨0b1111111#7, false, false, f.l, f.cond, f.d, 0b011010011#9⟩
  | .setpixa f => ⟨0b1111111#7, false, false, f.l, f.cond, f.d, 0b011010100#9⟩
  | .setpixr f => ⟨0b1111111#7, false, false, f.l, f.cond, f.d, 0b011010101#9⟩
  | .setpixg f => ⟨0b1111111#7, false, false, f.l, f.cond, f.d, 0b011010110#9⟩
  | .setpixb f => ⟨0b1111111#7, false, false, f.l, f.cond, f.d, 0b011010111#9⟩
  | .setpora f => ⟨0b1111111#7, false, false, f.l, f.cond, f.d, 0b011011000#9⟩
  | .setporb f => ⟨0b1111111#7, false, false, f.l, f.cond, f.d, 0b011011001#9⟩
  | .setporc f => ⟨0b1111111#7, false, false, f.l, f.cond, f.d, 0b011011010#9⟩
  | .setpord f => ⟨0b1111111#7, false, false, f.l, f.cond, f.d, 0b011011011#9⟩
  | .push f => ⟨0b1111111#7, false, false, f.l, f.cond, f.d, 0b011011100#9⟩
  | .jmpReg f => ⟨0b1111111#7, f.wz, f.wc, false, f.cond, f.d, 0b011110100#9⟩
  | .jmpdReg f => ⟨0b1111111#7, f.wz, f.wc, false, f.cond, f.d, 0b011110101#9⟩
  | .callReg f => ⟨0b1111111#7, f.wz, f.wc, false, f.cond, f.d, 0b011110110#9⟩
  | .calldReg f => ⟨0b1111111#7, f.wz, f.wc, false, f.cond, f.d, 0b011110111#9⟩
  | .callaReg f => ⟨0b1111111#7, f.wz, f.wc, false, f.cond, f.d, 0b011111000#9⟩
  | .calladReg f => ⟨0b1111111#7, f.wz, f.wc, false, f.cond, f.d, 0b011111001#9⟩
  | .callbReg f => ⟨0b1111111#7, f.wz, f.wc, false, f.cond, f.d, 0b011111010#9⟩
  | .callbdReg f => ⟨0b1111111#7, f.wz, f.wc, false, f.cond, f.d, 0b011111011#9⟩
  | .callxReg f => ⟨0b1111111#7, f.wz, f.wc, false, f.cond, f.d, 0b011111100#9⟩
  | .callxdReg f => ⟨0b1111111#7, f.wz, f.wc, false, f.cond, f.d, 0b011111101#9⟩
  | .callyReg f => ⟨0b1111111#7, f.wz, f.wc, false, f.cond, f.d, 0b011111110#9⟩
  | .callydReg f => ⟨0b1111111#7, f.wz, f.wc, false, f.cond, f.d, 0b011111111#9⟩
  | .reta f => ⟨0b1111111#7, f.wz, f.wc, false, f.cond, 0, 0b100000000#9⟩
  | .retad f => ⟨0b1111111#7, f.wz, f.wc, false, f.cond, 0, 0b100000001#9⟩
  | .retb f => ⟨0b1111111#7, f.wz, f.wc, false, f.cond, 0, 0b100000010#9⟩
  | .retbd f => ⟨0b1111111#7, f.wz, f.wc, false, f.cond, 0, 0b100000011#9⟩
  | .retx f => ⟨0b1111111#7, f.wz, f.wc, false, f.cond, 0, 0b100000100#9⟩
  | .retxd f => ⟨0b1111111#7, f.wz, f.wc, false, f.cond, 0, 0b100000101#9⟩
  | .rety f => ⟨0b1111111#7, f.wz, f.wc, false, f.cond, 0, 0b100000110#9⟩
  | .retyd f => ⟨0b1111111#7, f.wz, f.wc, false, f.cond, 0, 0b100000111#9⟩
  | .ret f => ⟨0b1111111#7, f.wz, f.wc, false, f.cond, 0, 0b100001000#9⟩
  | .retd f => ⟨0b1111111#7, f.wz, f.wc, false, f.cond, 0, 0b100001001#9⟩
  | .polctra f => ⟨0b1111111#7, f.wz, f.wc, false, f.cond, 0, 0b100001010#9⟩
  | .polctrb f => ⟨0b1111111#7, f.wz, f.wc, false, f.cond, 0, 0b100001011#9⟩
  | .polvid f => ⟨0b1111111#7, f.wz, f.wc, false, f.cond, 0, 0b100001100#9⟩
  | .capctra f => ⟨0b1111111#7, false, false, false, f.cond, 0, 0b100001101#9⟩
  | .capctrb f => ⟨0b1111111#7, false, false, false, f.cond, 0, 0b100001110#9⟩
  | .capctrs f => ⟨0b1111111#7, false, false, false, f.cond, 0, 0b100001111#9⟩
  | .setpixw f => ⟨0b1111111#7, false, false, false, f.cond, 0, 0b100010000#9⟩
  | .clracca f => ⟨0b1111111#7, false, false, false, f.cond, 0, 0b100010001#9⟩
  | .clraccb f => ⟨0b1111111#7, false, false, false, f.cond, 0, 0b100010010#9⟩
  | .clraccs f => ⟨0b1111111#7, false, false, false, f.cond, 0, 0b100010011#9⟩
  | .chkptrx f => ⟨0b1111111#7, f.wz, f.wc, false, f.cond, 0, 0b100010100#9⟩
  | .chkptry f => ⟨0b1111111#7, f.wz, f.wc, false, f.cond, 0, 0b100010101#9⟩
  | .synctra f => ⟨0b1111111#7, false, false, false, f.cond, 0, 0b100010110#9⟩
  | .synctrb f => ⟨0b1111111#7, false, false, false, f.cond, 0, 0b100010111#9⟩
  | .dcachex f => ⟨0b1111111#7, false, false, false, f.cond, 0, 0b100011000#9⟩
  | .icachex f => ⟨0b1111111#7, false, false, false, f.cond, 0, 0b100011001#9⟩
  | .icachep f => ⟨0b1111111#7, false, false, false, f.cond, 0, 0b100011010#9⟩
  | .icachen f => ⟨0b1111111#7, false, false, false, f.cond, 0, 0b100011011#9⟩
  | .nop => ⟨0, false, false, false, 0, 0, 0⟩
  | .mergen f => ⟨0b1000111#7, false, false, f.i, f.cond, f.d, f.s⟩
  | .splitn f => ⟨0b1000111#7, false, true, f.i, f.cond, f.d, f.s⟩
  | .switch => ⟨0b1010100#7, true, true, false, 0x3, 0x1F3, 0x1F3⟩
  | .switchd => ⟨0b1010101#7, true, true, false, 0x3, 0x1F3, 0x1F3⟩
  | .pusha f => ⟨0b1101001#7, false, f.l, true, f.cond, f.d, 0b011000001#9⟩
  | .pushb f => ⟨0b1101001#7, false, f.l, true, f.cond, f.d, 0b111000001#9⟩
  | .popa f => ⟨0b0000100#7, f.wz, f.wc, true, f.cond, f.d, 0b010111111#9⟩
  | .popb f => ⟨0b0000100#7, f.wz, f.wc, true, f.cond, f.d, 0b110111111#9⟩
  | .pushx f => ⟨0b1101010#7, false, f.l, true, f.cond, f.d, 0b101100001#9⟩
  | .pushy f => ⟨0b1101010#7, true, f.l, true, f.cond, f.d, 0b111100001#9⟩
  | .popx f => ⟨0b0000110#7, f.wz, f.wc, true, f.cond, f.d, 0b101011111#9⟩
  | .popy f => ⟨0b0000111#7, f.wz, f.wc, true, f.cond, f.d, 0b111011111#9⟩

/-- The word of an instruction. -/
def encode (i : Instr) : Word := i.fields.join

end Sys2Proof
end

