-- ==== Sys2Proof/Config.lean ====
section
/-!
DEFINITION. What the spec leaves open, as opaque constants: nothing in Lean can evaluate one or prove a value of
one, so a statement holds whatever they are. Two kinds stand here. A *free value* takes the turn counter of the
state (and the number of the draw within the turn) and is fresh at every use (log 11). An *open function* takes
the inputs the spec says a result depends on, and is fixed (92_eei_decisions.md section 2).
-/

set_option Elab.async false

namespace Sys2Proof

/-! ### Fresh free values (log 11) -/

/-- A 32-bit value the spec leaves unspecified, fresh at each turn and draw. -/
opaque Config.freeWord : (turn draw : Nat) → Word

/-- One bit the spec leaves unspecified, fresh at each turn and draw. -/
opaque Config.freeBit : (turn draw : Nat) → Bool

/-- A choice among finitely many candidates that the spec leaves unspecified; used modulo their number. -/
opaque Config.freeIndex : (turn draw : Nat) → Nat

/-! ### Open parameters of 92_eei_decisions.md section 2 -/

/-- ROM_IMAGE: the ROM bytes at $00020..$00DFF (R124). -/
opaque Config.romByte : Nat → Byte

/-- ALU_C: the C result of an ALU instruction whose C the spec does not give, a function of D, S, old C and
old Z only (R551). The first argument names the instruction. -/
opaque Config.aluC : (op : Nat) → (d s : Word) → (c z : Bool) → Bool

/-- ALU_RESULT: the D result of the ALU instructions whose result format is unknown (U24), a function of the
inputs only. -/
opaque Config.aluResult : (op : Nat) → (d s : Word) → (c z : Bool) → Word

/-- PIN_ENV: the levels of the 92 external pins at a clock, port by port (0, 1, 2 for A, B, C), given what the chip
drives on all of them: the combined output and direction longs of the three ports (R40, R41, D10). -/
opaque Config.pinEnv : (clock : Nat) → (out dir : Quad Word) → (port : Fin 4) → Word

/-- PIN_ENV: which pins of a port something outside the chip drives at a clock (section 2 of 92_eei_decisions.md). -/
opaque Config.pinOutside : (clock : Nat) → (port : Fin 4) → Word

/-- PIN_DELAY, less the one clock it takes at least (D26). -/
opaque Config.pinDelay : Nat

/-- LFSR_FN: the next value of a cog's dither LFSR (R841). -/
opaque Config.lfsrNext : Word → Word

/-- LFSR_FN: the nine dither bits taken from the LFSR (R841). -/
opaque Config.lfsrDither : Word → BitVec 9

/-- The quotient and remainder where the spec gives none: zero denominator, quotient that does not fit, `FRAC` with D not
below S (U49); any value, fresh at each turn (log 41). `op` names the instruction. -/
opaque Config.divOpen : (turn op : Nat) → (n : BitVec 64) → (m : Word) → Word × Word

/-- Whether a root that is not an integer is rounded up, fresh at each turn (U51, log 41). -/
opaque Config.sqrtUp : (turn : Nat) → BitVec 64 → Bool

/-- CORDIC_FN: QLOG with a configuration other than %0_00000 (R744). -/
opaque Config.qlog : (qi : BitVec 6) → Word → Word
/-- CORDIC_FN: QEXP with a configuration other than %0_00000 (R745). -/
opaque Config.qexp : (qi : BitVec 6) → Word → Word

/-- The table of R746, columns 1 and 2: a number and its QLOG, for QI = 0. -/
def logTable : List (Word × Word) :=
  [(0x00000000#32, 0x00000000#32), (0x00000001#32, 0x00000000#32), (0x00000002#32, 0x08000000#32),
   (0x00000003#32, 0x0CAE00D2#32), (0x00000004#32, 0x10000000#32), (0x00000005#32, 0x12934F09#32),
   (0x07ADCBD8#32, 0xD786F595#32), (0x20000000#32, 0xE8000000#32), (0x40000000#32, 0xF0000000#32),
   (0x80000000#32, 0xF8000000#32), (0xFFFFFFFF#32, 0xFFFFFFFF#32)]

/-- The table of R746, columns 2 and 3: a logarithm and its QEXP, for QI = 0. -/
def expTable : List (Word × Word) :=
  [(0x00000000#32, 0x00000001#32), (0x08000000#32, 0x00000002#32), (0x0CAE00D2#32, 0x00000003#32),
   (0x10000000#32, 0x00000004#32), (0x12934F09#32, 0x00000005#32), (0xD786F595#32, 0x07ADCBD9#32),
   (0xE8000000#32, 0x20000000#32), (0xF0000000#32, 0x40000000#32), (0xF8000000#32, 0x80000000#32),
   (0xFFFFFFFF#32, 0xFFFFFFE9#32)]

/-- The first number at which a conversion there and back loses something (R746). -/
def firstLossy : Nat := 0x07ADCBD8

/-- What R746 says of QLOG and QEXP at QI = 0: the table, and that QEXP undoes QLOG below the first lossy number. -/
structure LogExp where
  log : Word → Word
  exp : Word → Word
  logRows : ∀ r ∈ logTable, log r.1 = r.2
  expRows : ∀ r ∈ expTable, exp r.1 = r.2
  undoes : ∀ v : Word, v ≠ 0 → v.toNat < firstLossy → exp (log v) = v

/-- The entry of a table for a key, else the key itself. -/
def tableOrSame (t : List (Word × Word)) (v : Word) : Word := ((t.find? fun r => r.1 == v).map Prod.snd).getD v

theorem tableOrSame_of_not_listed {t : List (Word × Word)} {v : Word} (h : ∀ r ∈ t, r.1 ≠ v) : tableOrSame t v = v := by
  have : t.find? (fun r => r.1 == v) = none := List.find?_eq_none.mpr fun r hr e => h r hr (eq_of_beq e)
  simp [tableOrSame, this]

/-- Below the first lossy number the tables list no more than the numbers up to 5. -/
theorem small_not_listed : ∀ r ∈ logTable ++ expTable, r.1.toNat ≤ 5 ∨ firstLossy ≤ r.1.toNat := by
  simp [logTable, expTable, firstLossy]

theorem tableOrSame_undoes (v : Word) (h0 : v ≠ 0) (hv : v.toNat < firstLossy) :
    tableOrSame expTable (tableOrSame logTable v) = v := by
  by_cases h5 : v.toNat ≤ 5
  · have : v = 0 ∨ v = 1 ∨ v = 2 ∨ v = 3 ∨ v = 4 ∨ v = 5 := by bv_omega
    rcases this with rfl | rfl | rfl | rfl | rfl | rfl
    · exact absurd rfl h0
    all_goals rfl
  · have key (t) (ht : ∀ r ∈ t, r ∈ logTable ++ expTable) : tableOrSame t v = v :=
      tableOrSame_of_not_listed fun r hr e => by have := small_not_listed r (ht r hr); rw [e] at this; omega
    rw [key logTable fun r hr => List.mem_append_left _ hr, key expTable fun r hr => List.mem_append_right _ hr]

/-- Something meets R746: a number outside the table may stand for itself. -/
def LogExp.witness : LogExp where
  log := tableOrSame logTable
  exp := tableOrSame expTable
  logRows := by intro r hr; fin_cases hr <;> rfl
  expRows := by intro r hr; fin_cases hr <;> rfl
  undoes := tableOrSame_undoes

/-- CORDIC_FN: QLOG and QEXP at QI = 0, any that meet R746. The argument only tells Lean that there is one. -/
opaque Config.logExp : [Inhabited LogExp] → LogExp
/-- CORDIC_FN: (QX, QY) of QSINCOS (R748). -/
opaque Config.qsincos : (qi : BitVec 6) → (angle amp : Word) → (imm : Bool) → Word × Word
/-- CORDIC_FN: (QX, QZ) of QARCTAN (R748). -/
opaque Config.qarctan : (qi : BitVec 6) → (x y : BitVec 30) → Word × Word
/-- CORDIC_FN: (QX, QY) of QROTATE (R748). -/
opaque Config.qrotate : (qi : BitVec 6) → (x y : BitVec 30) → (z : Word) → Word × Word

/-- CTR_FN: the pins INA and INB of a counter, 0 to 127; how the upper bits of CTRx select them is not in the source (R812,
N20). `counter` is 0 for CTRA and 1 for CTRB. -/
opaque Config.ctrPins : (counter : Nat) → (cfg : Word) → BitVec 7 × BitVec 7
/-- CTR_FN: what an encoder half-step between two input pairs does: bit 0 a forward step, else bit 1 a reverse step
(R813). -/
opaque Config.ctrEncoder : (before now : Bool × Bool) → BitVec 2
/-- CTR_FN: PHS and its rollover after one clock in the DUAL modes, of which nothing is said (R812, R819). `regs` are CTRx,
WAV, FRQ and PHS. -/
opaque Config.ctrPhs : (clock : Nat) → (cog : Fin 8) → (counter : Nat) → (regs : Quad Word) → (ins : Bool × Bool) →
  Word × Bool
/-- CTR_FN: the cosine and sine accumulators after one clock in the NCO and DUAL modes: what those count or time into which
register is not in the source (R812, R819). `regs` are CTRx, WAV, FRQ and PHS, `accs` the accumulators before. -/
opaque Config.ctrAcc : (clock : Nat) → (cog : Fin 8) → (counter : Nat) → (regs : Quad Word) → (accs : Word × Word) →
  (ins : Bool × Bool) → Word × Word
/-- CTR_FN: the nine-bit sine of a phase (R815). -/
opaque Config.ctrSine : (phase : BitVec 9) → BitVec 9
/-- CTR_FN: the nine-bit cosine of a phase to which the phase advance of WAV has been applied (R815). -/
opaque Config.ctrCosine : (phase : BitVec 9) → BitVec 9
/-- CTR_FN: OUTA and OUTB of a counter in the modes in which the source does not give them (R812, R814, R819). -/
opaque Config.ctrOuts : (clock : Nat) → (cog : Fin 8) → (counter : Nat) → (cfg wav phs : Word) → Bool × Bool
/-- CTR_FN: on which pins of a port the two outputs of a counter appear, and the bits they set there; the selection is not
in the source (N20). -/
opaque Config.ctrPlace : (cog : Fin 8) → (counter : Nat) → (cfg : Word) → (outs : Bool × Bool) → (port : Fin 4) → Word
/-- CTR_FN: the 18-bit signals SIGA and SIGB of a counter that is in no WAVE mode (R819). `regs` are CTRx, WAV, FRQ and PHS.
-/
opaque Config.ctrSigOpen : (clock : Nat) → (cog : Fin 8) → (counter : Nat) → (regs : Quad Word) → (ins : Bool × Bool) →
  BitVec 18 × BitVec 18
/-- CTR_FN: the 18-bit signal of a WAVE mode, CTRx[4:0], at a phase of nine bits, with the offset and the amplitude of WAV
(R814). -/
opaque Config.ctrSig : (mode : BitVec 5) → (phase offset amplitude : BitVec 9) → BitVec 18
/-- How the sum of two 18-bit counter signals is kept in range (R830). -/
opaque Config.dacSum : BitVec 18 → BitVec 18 → BitVec 18

/-- The 8:8:8 colour of a pixel of a mode whose colours or expansion are not given (R890). -/
opaque Config.vidColour : (mode : BitVec 4) → (raw : BitVec 16) → BitVec 24
/-- Whether a negative sum of products is divided by 64 downwards, or else toward zero (R885). -/
opaque Config.vidFloor : Bool
/-- Q': (I,Q) rotated by the modulation phase; the arithmetic is not given (R885). -/
opaque Config.vidChroma : (i q : BitVec 9) → (phase : BitVec 4) → BitVec 9

/-- The trace bits of a cog whose places or values are not given (R975, R976, C30). -/
opaque Config.traceBits : (turn : Nat) → (cog : Fin 8) → (cfg : BitVec 4) → Word

/-- U32: the address a remapped field names when BBB + RRR is above 9. DESIGN CHOICE: one fixed function of MAP,
selector and field, where U32 allows any value at each occurrence (log 58). -/
opaque Config.remapOpen : (map : BitVec 7) → (sel : Nat) → RegAddr → RegAddr

end Sys2Proof
end

