-- ==== Sys2Proof/Machine/State.lean ====
section
/-!
DEFINITION. The state of the machine (10_state.md R30 to R75) as plain data, why a step can stop, and the state after
reset. INVENTORY.md lists every piece with its rule and its reset value. `cur`, `turn`,
`clock` and `pads` of `State`, the timing fields of `Pipe` and the `stage4` record of a cog are the model's own (log 6, 7,
11, 33).
-/

set_option Elab.async false

namespace Sys2Proof.Machine

open Sys2Proof

/-- Data by address in one canonical form: addresses strictly rising, no entry equal to what an unlisted address
reads as (`Sparse.wf` in Ops.lean). -/
abbrev Sparse (α : Type) := List (Nat × α)

/-- Hub memory (R31): the bytes that differ from what an unlisted address reads as (log 3). -/
abbrev Memory := List Host.Cell

/-- What a cog is doing (R35). -/
inductive RunState where
  | idle
  /-- The loader is copying; so many clocks are left of the 1,017 (R296). -/
  | loading (left : Nat)
  | running
deriving DecidableEq, Repr

/-- Further passes of a repeat block (R51). -/
inductive Passes where
  | count (n : Nat)
  | infinite
deriving DecidableEq, Repr

/-- The block repeater of a task (R51). -/
structure Repeater where
  active : Bool
  first : Addr
  last : Addr
  left : Passes
deriving DecidableEq, Repr

/-- What each of the four tasks of a cog has for itself (R47 to R52). -/
structure Task where
  z : Bool
  c : Bool
  /-- The address of the task's next instruction (R47). -/
  pc : Addr
  /-- The four-long stack, newest first; its length is the depth (R49, log 20). -/
  stack : List Word
  augs : Option (BitVec 23)
  augd : Option (BitVec 23)
  rep : Repeater
  dlyTarget : Addr
  /-- Instructions of the task still to execute before the delayed branch takes effect, 0 to 3 (R52). -/
  dlyCount : Nat
deriving DecidableEq, Repr

/-- The hidden registers of INDA or INDB (R39). -/
structure IndReg where
  ptr : RegAddr
  bot : RegAddr
  top : RegAddr
deriving DecidableEq, Repr

/-- Earlier contents of the WIDE registers that a read through the window may still see (R1003). -/
structure OldWides where
  regs : Octet Word
  /-- Instruction cycles in which it may. -/
  left : Nat
deriving DecidableEq, Repr

/-- An earlier window, through which a read is open (R1004). -/
structure OldWindow where
  base : RegAddr
  /-- Instruction cycles in which it is. -/
  left : Nat
deriving DecidableEq, Repr

/-- The WIDE registers, their window and the data cache (R43), with what the two read hazards of R1003 and R1004
need. -/
structure Wide where
  regs : Octet Word
  base : RegAddr
  mapped : Bool
  tag : BitVec 13
  valid : Bool
  /-- Contents before the last reloads, newest first (R1003). -/
  olds : List OldWides
  /-- Windows before the last SETWIDE and SETWIDZ, newest first (R1004). -/
  oldWindows : List OldWindow
  /-- Instruction cycles in which a read through the present window is open (R1004). -/
  moveLeft : Nat
deriving DecidableEq, Repr

/-- Which task runs in which instruction cycle (R48, R394). -/
structure Sched where
  /-- The TASK register. -/
  task : Word
  /-- The schedule in force. -/
  slots : Word
  /-- The slot pointer. -/
  slot : Nat
  /-- Schedules on their way: `q1` takes effect at the end of this instruction cycle, `q5` is where SETTASK puts
  its operand (R394, log 8). -/
  q1 : Option Word
  q2 : Option Word
  q3 : Option Word
  q4 : Option Word
  q5 : Option Word
deriving DecidableEq, Repr

/-- The resolved operands of one instruction (R183): what pipeline stages 2 and 3 hand to stage 4. -/
structure Operands where
  /-- Resolved D register address, or the D field where D is no register operand. -/
  d : RegAddr
  /-- D value. -/
  dv : Word
  /-- S value. -/
  sv : Word
deriving DecidableEq, Repr

/-- An instruction that waits in stage 4: its operands as they were read on entry, and the level of the watched pin
on the clock before (R398, R418, R422). -/
structure Waiting where
  ops : Operands
  pin : Bool
deriving DecidableEq, Repr

/-- An instruction on its way through stages 1 to 3 (R74): the word as it was fetched (R1001), its task and address. -/
structure Slot where
  word : Word
  task : Fin 4
  addr : Addr
  /-- A branch of its task has cancelled it (R391). -/
  cancelled : Bool
  /-- It is one of the ROM longs that a model must not execute (R124). -/
  rom : Bool
deriving DecidableEq, Repr

/-- What stage 4 shows of a clock, the signals of the trace (R975, R976). -/
structure Stage4 where
  task : Fin 4
  pc : Addr
  hub : Bool
  fetch : Bool
  go : Bool
  cond : Bool
  jump : Bool
deriving DecidableEq, Repr

/-- The four-stage pipeline (R74, R1000, log 7). -/
structure Pipe where
  /-- The instructions fetched and not yet executed, the next one first; at most three (R390, R1012). -/
  queue : List Slot
  /-- Clocks the last two instruction cycles took (R906). -/
  took1 : Nat
  took2 : Nat
  /-- The instruction word in stage 4. -/
  ir : Word
  /-- Set while that instruction waits in stage 4. -/
  waiting : Option Waiting
  /-- Clocks it has already waited. -/
  waited : Nat
  /-- Clocks the executed instruction still holds stage 4 (R1020). -/
  stall : Nat
deriving DecidableEq, Repr

/-- The remapping register and its two-deep delay line (R57, R932, R1012): `eff` forms addresses in this
instruction cycle, `m2` in the next, `m1` in the one after. -/
structure Remap where
  map : BitVec 7
  m1 : BitVec 7
  m2 : BitVec 7
  eff : BitVec 7
deriving DecidableEq, Repr

/-- Ports: OUT, DIR (R41, R42), the exchange filter (R58) and the three-clock histories PIND is read through
(R942). -/
structure Ports where
  out : Quad Word
  dir : Quad Word
  xch : Word
  xch1 : Word
  xch2 : Word
  xch3 : Word
  d1 : Word
  d2 : Word
  d3 : Word
deriving DecidableEq, Repr

/-- The SUBCNT chain (R54, R414). `left` is 2 in the clock that arms it and 1 in the clock that may use it. -/
structure Chain where
  left : Nat
  task : Fin 4
  borrow : Bool
deriving DecidableEq, Repr

/-- The four math engines and the accumulators (R60 to R64). A `...Left` is the number of clocks until the result
can be read; `macLeft` is one more than the spec's `mac_busy` in the clock of the MACA or MACB (R770). -/
structure MathUnit where
  acca : BitVec 64
  accb : BitVec 64
  macLeft : Nat
  mulResult : BitVec 64
  mulLeft : Nat
  divDenominator : Word
  divQuotient : Word
  divRemainder : Word
  divLeft : Nat
  sqrtResult : Word
  sqrtLeft : Nat
  qx : Word
  qy : Word
  qz : Word
  /-- SETQZ wrote `qz` and no operation has started since (R743). -/
  qzPreset : Bool
  qi : BitVec 6
  qLeft : Nat
deriving DecidableEq, Repr

/-- One counter (R65). -/
structure Ctr where
  cfg : Word
  wav : Word
  frq : Word
  phs : Word
  cosAcc : Word
  sinAcc : Word
  cos : Word
  sin : Word
  /-- PHS has rolled over since the last poll (R817). -/
  rolled : Bool
  /-- PHS rolls over in this clock (R816). -/
  rolling : Bool
  /-- INA and INB one clock earlier (R813). -/
  prevA : Bool
  prevB : Bool
  /-- FRQ is added to PHS in this clock, or subtracted from it: the ADD and SUB signals of the LOGIC modes (R813). -/
  adding : Bool
  subbing : Bool
  /-- PHS[31] one clock earlier, from which the PLL counts (R812). -/
  top : Bool
  /-- Output edges the times-8 PLL still owes for this cycle of PHS[31]. -/
  owed : Nat
  /-- Edges of the times-8 PLL since the divider's last output edge. -/
  divider : Nat
  /-- Dot clocks the PLL gives in this clock (R880). -/
  dots : Nat
deriving DecidableEq, Repr

/-- DAC channels and the dither LFSR (R66). -/
structure Dac where
  cfg : Quad (BitVec 2)
  val : Quad (BitVec 18)
  lfsr : Word
  /-- What each channel puts out in this clock (R830, R841). -/
  out : Quad (BitVec 9)
deriving DecidableEq, Repr

/-- The video generator (R67, R887, R892). -/
structure Vid where
  cfg : BitVec 7
  y : Word
  i : Word
  q : Word
  /-- The command being shown, and its dot clocks left. -/
  current : Option (Word × Word)
  dots : Nat
  /-- The buffered command. -/
  next : Option (Word × Word)
  phase : BitVec 4
  /-- SIG0 to SIG3, as the last dot clock formed them (R880, R891). -/
  sig : Quad (BitVec 9)
deriving DecidableEq, Repr

/-- A texture parameter and its delta (R68). -/
structure PixPair where
  value : BitVec 16
  delta : BitVec 16
deriving DecidableEq, Repr

/-- The texture mapper (R68). -/
structure Pix where
  cfg : Word
  z : PixPair
  u : PixPair
  v : PixPair
  a : PixPair
  r : PixPair
  g : PixPair
  b : PixPair
deriving DecidableEq, Repr

/-- The pixel mixer (R69). -/
structure Mix where
  m : BitVec 9
  dab : Byte
  dcb : Byte
  sab : Byte
  scb : Byte
  /-- The next word-mode operation takes the high word of S. -/
  sel : Bool
deriving DecidableEq, Repr

/-- The pin transfer unit (R70, R852). -/
structure Xfr where
  cfg : BitVec 7
  phase : BitVec 4
  hold : BitVec 16
  /-- The word now on the pins, that of the last pattern clock. -/
  pins : Word
  /-- One clock to wait before the pattern starts. -/
  delay : Bool
deriving DecidableEq, Repr

/-- Where a serial receiver is (R867). -/
inductive RxPhase where
  | awaitStop
  | awaitStart
  /-- Inside a frame: clocks until the next sample, bits still to sample. -/
  | receiving (clocks bits : Nat)
deriving DecidableEq, Repr

/-- One serial transceiver (R71, R867). -/
structure Ser where
  cfg : Word
  txPeriod : BitVec 16
  rxPeriod : BitVec 16
  txData : Word
  txBusy : Bool
  /-- Clocks of the frame still to come. -/
  txLeft : Nat
  rxData : Word
  rxFull : Bool
  rxPhase : RxPhase
  rxShift : BitVec 36
deriving DecidableEq, Repr

/-- One instruction cache line (R72). `age` is 0 for the line used last. -/
structure CacheLine where
  valid : Bool
  tag : BitVec 13
  longs : Octet Word
  age : Nat
deriving DecidableEq, Repr

/-- The instruction cache (R72). `since` is how many entries of the hub's write history it may no longer see (log
30). -/
structure ICache where
  lines : Quad CacheLine
  prefetch : Bool
  since : Nat
deriving DecidableEq, Repr

/-- The targets of SETPORx, CFGPINS and SETPIXW (R73, log 31). -/
structure Opaque where
  por : Quad Word
  pinsD : Quad Word
  pinsS : Quad Word
  pixw : Bool
deriving DecidableEq, Repr

/-- One cog (R36 to R74). -/
structure Cog where
  run : RunState
  ram : Sparse Word
  /-- Which registers still hold a ROM long that a model must not execute (R124). -/
  rom : BitVec 512
  aux : Sparse Word
  ports : Ports
  inda : IndReg
  indb : IndReg
  wide : Wide
  ptra : HubAddr
  ptrb : HubAddr
  ptrx : Byte
  ptry : Byte
  tasks : Quad Task
  sched : Sched
  pipe : Pipe
  stage4 : Stage4
  remap : Remap
  lastD : Word
  chain : Chain
  trace : BitVec 4
  math : MathUnit
  ctra : Ctr
  ctrb : Ctr
  dac : Dac
  vid : Vid
  pix : Pix
  mix : Mix
  xfr : Xfr
  sera : Ser
  serb : Ser
  icache : ICache
  opq : Opaque
deriving DecidableEq, Repr

/-- The hub (R31 to R35). -/
structure Hub where
  mem : Memory
  cnt : BitVec 64
  /-- CNT one clock earlier (R32). -/
  cntPrev : BitVec 64
  lockState : Octet Bool
  lockTaken : Octet Bool
  clk : BitVec 9
  /-- The hub cycle rotation: which cog owns this clock (R35, R135, log 5). -/
  rot : BitVec 3
  /-- Hub longs that have been overwritten with another value: long address and old value, newest first (U10,
  log 30). -/
  hist : List (Nat × Word)
deriving DecidableEq, Repr

/-- What the chip drives on the external pins, ports A, B and C (R41): the output longs of all cogs ORed, the direction
longs ORed, and the pins that exactly one cog drives. -/
structure Drive where
  out : Quad Word
  dir : Quad Word
  sole : Quad Word
deriving DecidableEq, Repr

/-- The external pins: what is driven in this clock, and the changes of it, newest first, each with the clock from which
it holds and a mask of the pins it concerns (D26, log 33). -/
structure Pads where
  drive : Drive
  changes : List (Nat × Quad Word)
deriving DecidableEq, Repr

/-- The machine (R30). -/
structure State where
  hub : Hub
  cogs : Octet Cog
  pads : Pads
  /-- The cog whose turn it is in this clock (log 6). -/
  cur : Fin 8
  /-- A counter of turns, the argument of every free value (log 11). -/
  turn : Nat
  /-- A counter of clocks that no reset clears, the time the environment sees (log 33). -/
  clock : Nat
deriving DecidableEq, Repr

/-- Why the machine stops: a program reached something to which the spec gives no effect. The hardware has no fault
mechanism (R950), so every constructor is the model's stop, and safe. -/
inductive Fault where
  /-- A word that matches no row is executed with its condition true (R195, U33); raised by `step`. Safe. -/
  | undefinedWord
  /-- A fifth push on a task stack (R510, U12); raised by PUSH and CALL. Safe. -/
  | stackOverflow
  /-- A pop of an empty task stack (R510, U12); raised by POP and RET. Safe. -/
  | stackUnderflow
deriving DecidableEq, Repr

/-- Why the model has no next state: the spec itself says refuse, on these operands or in this state. Every
constructor is safe: the model stops where the hardware would do something unknown. -/
inductive Refusal where
  /-- An instruction without a meaning; raised by arms of `exec` only. -/
  | notModelled (mnemonic : String)
  /-- A register write at $1F2 or $1F3 (U7); raised by every D write. -/
  | indirectWindow
  /-- An AUX access or a pointer write while XFR runs in an AUX mode (R853, U20). -/
  | auxBusy
  /-- GETPIX with a condition, in multi-task mode or without its three-clock preparation (R906, U30). -/
  | pixUnprepared
  /-- PUSHZC and POPZC, which the spec lists without any effect (R514, R515, U46). -/
  | flagStackUndescribed
  /-- A pending AUGS or AUGD meets, in an instruction that executes, a constant that is no plain nine-bit immediate (R177,
  U31, log 23). -/
  | augPending
  /-- SETWIDE or SETWIDZ puts the window over $1F2..$1FF (U35). -/
  | wideWindow
  /-- CLKSET selects a clock source that is switched off (R300, U39). -/
  | clockSource
  /-- REPD with a register count above $FFFF (U40). -/
  | repeatCount
  /-- A taken branch, a REPx or a looping wait among the three instructions behind a delayed branch (U43). -/
  | delaySlot
  /-- A math engine is started, or its setup register written, while it is busy (R722, U48). -/
  | engineBusy
  /-- A serial period of 0 (R860, U57). -/
  | serialPeriod
  /-- A texture that reaches register $1F2 or beyond (R907, U58). -/
  | texturePastRam
  /-- A ROM long at $00008 or above comes to execution, from hub memory or from a register it was loaded into (R124);
  raised by `step`. -/
  | romCode
deriving DecidableEq, Repr

/-! ### Reset values (R75) -/

def Repeater.idle : Repeater := ⟨false, 0, 0, .count 0⟩

/-- A task at cog start: flags 0, PC its own number (R47). -/
def Task.start (pc : Addr) : Task :=
  { z := false, c := false, pc := pc, stack := [], augs := none, augd := none, rep := Repeater.idle,
    dlyTarget := 0, dlyCount := 0 }

def Wide.start : Wide :=
  { regs := Octet.all 0, base := 0, mapped := false, tag := 0, valid := false, olds := [], oldWindows := [], moveLeft := 0 }

def Sched.start : Sched := ⟨0, 0, 0, none, none, none, none, none⟩

def Pipe.start : Pipe := { queue := [], took1 := 0, took2 := 0, ir := 0, waiting := none, waited := 0, stall := 0 }

def Stage4.start : Stage4 :=
  { task := 0, pc := 0, hub := false, fetch := false, go := false, cond := false, jump := false }

def Ports.start : Ports := ⟨Quad.all 0, Quad.all 0, 0, 0, 0, 0, 0, 0, 0⟩

/-- The ports of a cog that is stopped or started: the port D outputs that are on their way to the exchange still arrive
(R942). -/
def Ports.cleared (p : Ports) : Ports := { Ports.start with d1 := p.d1, d2 := p.d2, d3 := p.d3 }

def MathUnit.start : MathUnit :=
  { acca := 0, accb := 0, macLeft := 0, mulResult := 0, mulLeft := 0, divDenominator := 0, divQuotient := 0,
    divRemainder := 0, divLeft := 0, sqrtResult := 0, sqrtLeft := 0, qx := 0, qy := 0, qz := 0, qzPreset := false,
    qi := 0, qLeft := 0 }

/-- A counter at cog start: off, WAV = $400201FF (R65). DESIGN CHOICE: INA and INB one clock earlier, on which the first clock
after the start depends, are 0 (R813 is silent, log 35); so is what else R75 leaves unspecified (U1, log 2). -/
def Ctr.start : Ctr :=
  { cfg := 0, wav := 0x400201FF#32, frq := 0, phs := 0, cosAcc := 0, sinAcc := 0, cos := 0, sin := 0,
    rolled := false, rolling := false, prevA := false, prevB := false, adding := false, subbing := false, top := false,
    owed := 0, divider := 0, dots := 0 }

/-- The DAC channels at cog start: software controlled, $00100 (R66). -/
def Dac.start : Dac := ⟨Quad.all 0, Quad.all 0x00100#18, 0, Quad.all 0⟩

/-- VID at cog start: off (R67), with no command queued (R893). DESIGN CHOICE: R75 leaves the buffers, the dot position, the
phase and VIDY, VIDI and VIDQ unspecified; here no command is shown either, and the rest, with the signals of VID, is 0 (U1,
log 2). -/
def Vid.start : Vid := { cfg := 0, y := 0, i := 0, q := 0, current := none, dots := 0, next := none, phase := 0, sig := Quad.all 0 }

def Pix.start : Pix :=
  let p : PixPair := ⟨0, 0⟩
  { cfg := 0, z := p, u := p, v := p, a := p, r := p, g := p, b := p }

/-- The mixer at cog start: M = $001, SAB = $FF (R69). -/
def Mix.start : Mix := { m := 0x001, dab := 0, dcb := 0, sab := 0xFF, scb := 0, sel := false }

def Xfr.start : Xfr := ⟨0, 0, 0, 0, false⟩

def Ser.start : Ser :=
  { cfg := 0, txPeriod := 0, rxPeriod := 0, txData := 0, txBusy := false, txLeft := 0, rxData := 0, rxFull := false,
    rxPhase := .awaitStop, rxShift := 0 }

def ICache.start (since : Nat) : ICache :=
  { lines := Quad.all ⟨false, 0, Octet.all 0, 0⟩, prefetch := true, since := since }

/-- A cog right after a start that loaded `ram` and set the pointers; only AUX and the port D outputs on their way are
left over from before (R75, R296, R942). -/
def Cog.start (run : RunState) (ram : Sparse Word) (rom : BitVec 512) (aux : Sparse Word) (ports : Ports)
    (ptra ptrb : HubAddr) (since : Nat) : Cog :=
  { run := run, ram := ram, rom := rom, aux := aux, ports := ports.cleared, inda := ⟨0, 0, 0⟩, indb := ⟨0, 0, 0⟩,
    wide := Wide.start, ptra := ptra, ptrb := ptrb, ptrx := 0, ptry := 0,
    tasks := ⟨Task.start 0, Task.start 1, Task.start 2, Task.start 3⟩, sched := Sched.start, pipe := Pipe.start,
    stage4 := Stage4.start, remap := ⟨0, 0, 0, 0⟩, lastD := 0, chain := ⟨0, 0, false⟩, trace := 0,
    math := MathUnit.start, ctra := Ctr.start, ctrb := Ctr.start, dac := Dac.start, vid := Vid.start, pix := Pix.start,
    mix := Mix.start, xfr := Xfr.start, sera := Ser.start, serb := Ser.start, icache := ICache.start since,
    opq := ⟨Quad.all 0, Quad.all 0, Quad.all 0, false⟩ }

/-- An idle cog: nothing but AUX and, for two clocks more, its port D outputs can be observed of it (R298, R942). -/
def Cog.stopped (aux : Sparse Word) (ports : Ports) : Cog := Cog.start .idle [] 0 aux ports 0 0 0

/-- No cog drives a pin. -/
def Pads.start : Pads := ⟨⟨Quad.all 0, Quad.all 0, Quad.all 0⟩, []⟩

/-- The hub after chip reset, with memory as given (R75, R990). -/
def Hub.start (mem : Memory) (hist : List (Nat × Word)) : Hub :=
  { mem := mem, cnt := 0, cntPrev := 0, lockState := Octet.all false, lockTaken := Octet.all false, clk := 0,
    rot := 0, hist := hist }

/-- The machine right after reset: the recommended BOOT_STATE of R991, cog 0 started with the program at $00E00 and
PTRA = 0, over a hub memory that holds nothing but the ROM (log 1, log 3). The cog's registers are the longs of that
memory, all zero. -/
def State.reset : State :=
  { hub := Hub.start [] [],
    cogs := (Octet.all (Cog.stopped [] Ports.start)).set 0 (Cog.start .running [] 0 [] Ports.start 0 0x00E00#18 0),
    pads := Pads.start, cur := 0, turn := 0, clock := 0 }

end Sys2Proof.Machine
end

