-- ==== Sys2Proof/Machine/Units.lean ====
section
/-!
DEFINITION. The free-running units of a cog: what each drives onto the ports, and what one clock does to it (R76); here
the serial transceivers, the pin transfer and the math engines, the others in Signals.lean. A unit's clock happens at the
beginning of a clock, before the instructions of that clock: a unit started by an instruction in clock c acts first in clock
c + 1, and in the clock of the instruction that stops it, it still acts (R852, R854). Also sparse data, which AUX accesses
of the units need.
-/

set_option Elab.async false

namespace Sys2Proof.Machine

open Sys2Proof

/-! ### Sparse data -/

/-- The entry for an address, if it is listed. -/
def Sparse.find? {α : Type} (m : Sparse α) (a : Nat) : Option α :=
  match m with
  | [] => none
  | (b, v) :: rest => if b = a then some v else Sparse.find? rest a

/-- What an address reads as, where an unlisted address `a` reads as `dflt a`. -/
def Sparse.read {α : Type} (dflt : Nat → α) (m : Sparse α) (a : Nat) : α := (Sparse.find? m a).getD (dflt a)

/-- The data without any entry for an address. -/
def Sparse.erase {α : Type} (m : Sparse α) (a : Nat) : Sparse α :=
  match m with
  | [] => []
  | (b, v) :: rest => if b = a then Sparse.erase rest a else (b, v) :: Sparse.erase rest a

/-- The data with one more entry, put before the first greater address. -/
def Sparse.insert {α : Type} (m : Sparse α) (a : Nat) (v : α) : Sparse α :=
  match m with
  | [] => [(a, v)]
  | (b, w) :: rest => if a < b then (a, v) :: (b, w) :: rest else (b, w) :: Sparse.insert rest a v

/-- Write one address; writing what an unlisted address reads as removes the entry. -/
def Sparse.write {α : Type} [DecidableEq α] (dflt : Nat → α) (m : Sparse α) (a : Nat) (v : α) : Sparse α :=
  if v = dflt a then m.erase a else (m.erase a).insert a v

/-- The canonical form: addresses strictly rising from `lo`, below `hi`, no entry equal to the default. -/
def Sparse.wfFrom {α : Type} [DecidableEq α] (dflt : Nat → α) (hi : Nat) (lo : Nat) : Sparse α → Bool
  | [] => true
  | (a, v) :: rest => decide (lo ≤ a) && decide (a < hi) && decide (v ≠ dflt a) && Sparse.wfFrom dflt hi (a + 1) rest

/-- What unlisted cog registers and unlisted AUX longs read as (log 3). -/
def zeroes : Nat → Word := fun _ => 0

/-- One AUX long (R44). -/
def auxRead (aux : Sparse Word) (a : Byte) : Word := aux.read zeroes a.toNat

/-- AUX with one long written (R44). -/
def auxWrite (aux : Sparse Word) (a : Byte) (v : Word) : Sparse Word := aux.write zeroes a.toNat v

/-! ### Bit fields of a longer value -/

/-- Bits `lo` and up of a word, `n` of them. -/
abbrev bits {w : Nat} (v : BitVec w) (lo n : Nat) : BitVec n := v.extractLsb' lo n

/-- One bit set to a level. -/
def setBit (v : Word) (i : Nat) (b : Bool) : Word :=
  if b then v ||| ((1#32) <<< i) else v &&& ~~~((1#32) <<< i)

/-! ### Serial transceivers (R860 to R867) -/

/-- Data bits of a frame in a transmitter or receiver mode: 32 for %01, 8 for %10 and %11 (R867). -/
def serDataBits (mode : BitVec 2) : Nat := if mode = 1 then 32 else 8

/-- Is the mode of inverse polarity (STOP low)? -/
def serInverse (mode : BitVec 2) : Bool := mode != 2

def Ser.txMode (u : Ser) : BitVec 2 := bits u.cfg 7 2
def Ser.rxMode (u : Ser) : BitVec 2 := bits u.cfg 16 2
def Ser.txPin (u : Ser) : BitVec 7 := bits u.cfg 0 7
def Ser.rxPin (u : Ser) : BitVec 7 := bits u.cfg 9 7
/-- Timed states of a frame: STOP, START, the data bits and, with T set, four ID bits (R867). -/
def Ser.txStates (u : Ser) : Nat := 2 + serDataBits u.txMode + (if u.cfg.getLsbD 18 then 4 else 0)
/-- Bits a receiver samples: the data bits and, with R set, four ID bits (R867). -/
def Ser.rxBits (u : Ser) : Nat := serDataBits u.rxMode + (if u.cfg.getLsbD 19 then 4 else 0)

/-- Capture a value for transmission: a whole frame is now to come (R863, R867). DESIGN CHOICE: the clock of the capture
is the first clock of the STOP state, since the spec does not say in which clock the first timed state begins (log 28).
-/
def Ser.capture (u : Ser) (v : Word) : Ser :=
  { u with txData := v, txBusy := true, txLeft := u.txStates * u.txPeriod.toNat }

/-- The logical state now on TX: STOP when idle; else by the clocks gone: STOP, START, data, ID (R867). -/
def Ser.txBit (u : Ser) : Bool :=
  if !u.txBusy then true
  else
    let gone := u.txStates * u.txPeriod.toNat - u.txLeft
    let k := gone / u.txPeriod.toNat
    if k = 0 then true
    else if k = 1 then false
    else if k - 2 < serDataBits u.txMode then u.txData.getLsbD (k - 2)
    else u.cfg.getLsbD (28 + (k - 2 - serDataBits u.txMode))

/-- The level on TX; a disabled transmitter drives nothing. -/
def Ser.txLevel (u : Ser) : Bool :=
  if u.txMode = 0 then false else u.txBit != serInverse u.txMode

/-- One bit at a pin number, as the contribution to one port. -/
def pinWord (pin : BitVec 7) (level : Bool) (port : Fin 4) : Word :=
  if (bits pin 5 2).toFin = port then setBit 0 (bits pin 0 5).toNat level else 0

/-- Transmitter: one clock of the frame (R867). -/
def Ser.tickTx (u : Ser) : Ser :=
  if u.txBusy then { u with txLeft := u.txLeft - 1, txBusy := decide (1 < u.txLeft) } else u

/-- The end of reception: with R set the four ID bits must match; then the data is captured. If the buffer was
still full, what it holds is open (R867, U57); so are bits 31:8 of eight-bit data (R865). -/
def Ser.rxCapture (u : Ser) (turn draw : Nat) : Ser :=
  let n := serDataBits u.rxMode
  let raw : Word := bits u.rxShift 0 32
  let data : Word := if n = 32 then raw else (Config.freeWord turn draw &&& 0xFFFFFF00#32) ||| (raw &&& 0xFF#32)
  let id : BitVec 4 := if n = 32 then bits u.rxShift 32 4 else bits u.rxShift 8 4
  let idle := { u with rxPhase := .awaitStop }
  if u.cfg.getLsbD 19 && (id &&& bits u.cfg 20 4 != bits u.cfg 24 4) then idle
  else { idle with rxData := (if u.rxFull then Config.freeWord turn (draw + 1) else data), rxFull := true }

/-- Receiver: one clock, with the level of the RX pin (R867). The first sample comes one and a half periods after the
START state is seen, in the centre clock of an odd period; an even period has no centre clock, and which of the two in the
middle samples is open (log 28). -/
def Ser.tickRx (u : Ser) (level : Bool) (turn draw : Nat) : Ser :=
  if u.rxMode = 0 then u
  else
    let bit := level != serInverse u.rxMode
    let p := u.rxPeriod.toNat
    match u.rxPhase with
    | .awaitStop => if bit then { u with rxPhase := .awaitStart, rxShift := 0 } else u
    | .awaitStart =>
      if bit then u
      else
        let early := if p % 2 = 0 && Config.freeBit turn (draw + 2) then 1 else 0
        { u with rxPhase := .receiving (p + p / 2 - early) u.rxBits, rxShift := 0 }
    | .receiving clocks left =>
      if 1 < clocks then { u with rxPhase := .receiving (clocks - 1) left }
      else
        let k := u.rxBits - left
        let sh := if bit then u.rxShift ||| ((1#36) <<< k) else u.rxShift
        let u := { u with rxShift := sh }
        if left ≤ 1 then u.rxCapture turn draw else { u with rxPhase := .receiving p (left - 1) }

/-! ### Pin transfer (R850 to R854) -/

def Xfr.enabled (u : Xfr) : Bool := u.cfg.getLsbD 6
/-- Modes %01x and %11x use AUX (R853). -/
def Xfr.usesAux (u : Xfr) : Bool := u.enabled && u.cfg.getLsbD 4
def Xfr.input (u : Xfr) : Bool := u.cfg.getLsbD 5
/-- Odd modes move 32 pins. -/
def Xfr.wide32 (u : Xfr) : Bool := u.cfg.getLsbD 3
/-- The port of the pin group (R850). -/
def Xfr.port (u : Xfr) : Fin 4 := (bits u.cfg 1 2).toFin
/-- In a 16-pin mode, the group is the upper half of its port (R850). -/
def Xfr.upper (u : Xfr) : Bool := !u.wide32 && u.cfg.getLsbD 0

/-- What an output mode keeps on the pins of a port: the word of the last pattern clock (R852). -/
def Xfr.drive (u : Xfr) (port : Fin 4) : Word :=
  if u.enabled && !u.input && u.port = port then
    (if u.wide32 then u.pins
     else if u.upper then (u.pins &&& 0xFFFF#32) <<< 16 else u.pins &&& 0xFFFF#32)
  else 0

/-- The halfword or long an input mode samples from the group's port (R850). -/
def Xfr.sample (u : Xfr) (port : Word) : Word :=
  if u.wide32 then port else if u.upper then port >>> 16 else port &&& 0xFFFF#32

/-- WIDEs, AUX, the AUX pointer and the unit after one clock of a running pattern; `pins` is the pin input of the
group's port (R852). -/
structure XfrStep where
  unit : Xfr
  wides : Octet Word
  aux : Sparse Word
  ptr : Byte

def Xfr.tick (u : Xfr) (wides : Octet Word) (aux : Sparse Word) (ptr : Byte) (port : Word) : XfrStep :=
  if !u.enabled then ⟨u, wides, aux, ptr⟩
  else if u.delay then ⟨{ u with delay := false }, wides, aux, ptr⟩
  else
    let ph := u.phase.toNat
    let next := { u with phase := u.phase + 1 }
    let high := ph % 2 = 1
    let half (w : Word) : Word := if high then w >>> 16 else w &&& 0xFFFF#32
    let long : Word := (bits (u.sample port) 0 16) ++ u.hold
    match (bits u.cfg 3 3).toNat with
    | 0 => ⟨{ next with pins := half (wides.get (bits u.phase 1 3).toFin) }, wides, aux, ptr⟩
    | 1 => ⟨{ next with pins := wides.get (bits u.phase 0 3).toFin }, wides, aux, ptr⟩
    | 2 => ⟨{ next with pins := half (auxRead aux ptr) }, wides, aux, if high then ptr + 1 else ptr⟩
    | 3 => ⟨{ next with pins := auxRead aux ptr }, wides, aux, ptr + 1⟩
    | 4 =>
      if high then ⟨next, wides.set (bits u.phase 1 3).toFin long, aux, ptr⟩
      else ⟨{ next with hold := bits (u.sample port) 0 16 }, wides, aux, ptr⟩
    | 5 => ⟨next, wides.set (bits u.phase 0 3).toFin (u.sample port), aux, ptr⟩
    | 6 =>
      if high then ⟨next, wides, auxWrite aux ptr long, ptr + 1⟩
      else ⟨{ next with hold := bits (u.sample port) 0 16 }, wides, aux, ptr⟩
    | _ => ⟨next, wides, auxWrite aux ptr (u.sample port), ptr + 1⟩

/-- What the unit puts on the pins of a port in the clock that begins, whose pattern clock it is: the word of that pattern
clock itself (R852, R854). -/
def Xfr.driveNext (u : Xfr) (wides : Octet Word) (aux : Sparse Word) (ptr : Byte) (port : Fin 4) : Word :=
  (u.tick wides aux ptr 0).unit.drive port

/-! ### Math engines (R721) -/

/-- One clock of every countdown. -/
def MathUnit.tick (m : MathUnit) : MathUnit :=
  { m with macLeft := m.macLeft - 1, mulLeft := m.mulLeft - 1, divLeft := m.divLeft - 1,
           sqrtLeft := m.sqrtLeft - 1, qLeft := m.qLeft - 1 }

end Sys2Proof.Machine
end

