-- ==== Sys2Proof/Machine/Signals.lean ====
section
/-!
DEFINITION. The free-running units of a cog that make signals: the counters with their PLL, the video generator, the DAC
channels, and the trace.
-/

set_option Elab.async false

namespace Sys2Proof.Machine

open Sys2Proof

/-! ### Counters (R812 to R819) -/

/-- The mode of a counter (R812). -/
def Ctr.mode (u : Ctr) : Nat := (bits u.cfg 0 5).toNat

/-- The condition of a LOGIC mode, on the inputs of this clock and INA one clock earlier (R812, R813). -/
def logicCond (mode : Nat) (a b prevA : Bool) : Bool :=
  match mode with
  | 16 => a && !prevA
  | 17 => !a && !b
  | 18 => a && !b
  | 19 => !b
  | 20 => !a && b
  | 21 => !a
  | 22 => a != b
  | 23 => !a || !b
  | 24 => a && b
  | 25 => a == b
  | 26 => a
  | 27 => a || !b
  | 28 => b
  | 29 => !a || b
  | 30 => a || b
  | _ => false

/-- A sum in 32 bits, and its carry. -/
def addCarry (a b : Word) : Word × Bool := (a + b, decide (2 ^ 32 ≤ a.toNat + b.toNat))

/-- What one clock does to PHS: its new value, whether it rolls over, and whether FRQ was added or subtracted (R813). -/
structure CtrMove where
  phs : Word
  rolls : Bool
  adds : Bool
  subs : Bool

/-- FRQ is added. -/
def Ctr.added (u : Ctr) : CtrMove := ⟨(addCarry u.phs u.frq).1, (addCarry u.phs u.frq).2, true, false⟩

/-- PHS stays. -/
def Ctr.rests (u : Ctr) : CtrMove := ⟨u.phs, false, false, false⟩

/-- How PHS moves in the mode of the counter (R813). NCO modes add in every clock (PRESUMED, G6, log 13); of the DUAL
modes nothing is said but that no counter rolls over while FRQ is 0 (R816). -/
def Ctr.move (u : Ctr) (clock : Nat) (cog : Fin 8) (number : Nat) (ins : Bool × Bool) : CtrMove :=
  if u.mode = 0 then u.rests
  else if u.mode < 9 then u.added
  else if u.mode < 12 then
    let r := Config.ctrPhs clock cog number ⟨u.cfg, u.wav, u.frq, u.phs⟩ ins
    ⟨r.1, r.2 && u.frq != 0, true, false⟩
  else if u.mode < 16 then u.added
  else if u.mode = 31 then
    let way := Config.ctrEncoder (u.prevA, u.prevB) ins
    if way.getLsbD 0 then u.added else if way.getLsbD 1 then ⟨u.phs - u.frq, false, false, true⟩ else u.rests
  else if logicCond u.mode ins.1 ins.2 u.prevA then u.added
  else u.rests

/-- Is the counter in a PLL mode, %00001 to %00111 (R812, R880)? -/
def Ctr.pll (u : Ctr) : Bool := bits u.cfg 3 2 == 0 && bits u.cfg 0 3 != 0

/-- The PLL after a clock that leaves `phs` in PHS (R812). Mode %00001 puts out PHS[31] itself, so one dot clock for
each time it rises. The others multiply it by 8 and divide by 32 down to 1: eight edges in each cycle of PHS[31], spread
over it in an open way, which `coin` chooses. DESIGN CHOICE: the edges owed and the divider go on counting while CTRx is
off, and a change of mode carries them over (log 37). -/
def Ctr.pllStep (u : Ctr) (phs : Word) (coin : Nat) : Ctr :=
  let rises := !u.top && phs.msb
  let edges := if rises || u.owed = 0 then u.owed else coin % (u.owed + 1)
  let ratio := 2 ^ (7 - u.mode)
  { u with
    top := phs.msb
    owed := if rises then 8 else u.owed - edges
    divider := (u.divider + edges) % ratio
    dots := if !u.pll then 0 else if u.mode = 1 then rises.toNat else (u.divider + edges) / ratio }

/-- The Goertzel accumulators after one clock of a WAVE mode (R815). DESIGN CHOICE: the lookup uses PHS before FRQ is
added in the same clock (log 35). -/
def Ctr.accumulate (u : Ctr) (ina : Bool) : Ctr :=
  let s : Word := (Config.ctrSine (bits u.phs 23 9)).signExtend 32
  let c : Word := (Config.ctrCosine (bits u.phs 23 9 + bits u.wav 23 9)).signExtend 32
  { u with sinAcc := (if ina then u.sinAcc + s else u.sinAcc - s)
           cosAcc := (if ina then u.cosAcc + c else u.cosAcc - c) }

/-- The accumulators after one clock: in a WAVE mode as R815 says, in the NCO and DUAL modes open (R812, R819), and with
the counter off or in a LOGIC mode, which moves PHS alone (R813), as they were. -/
def Ctr.accumulators (u : Ctr) (clock : Nat) (cog : Fin 8) (number : Nat) (ins : Bool × Bool) : Ctr :=
  if u.mode = 0 || 16 ≤ u.mode then u
  else if 12 ≤ u.mode then u.accumulate ins.1
  else
    let r := Config.ctrAcc clock cog number ⟨u.cfg, u.wav, u.frq, u.phs⟩ (u.cosAcc, u.sinAcc) ins
    { u with cosAcc := r.1, sinAcc := r.2 }

/-- One clock of a counter of a cog, with the levels of INA and INB in it (R813, R815). DESIGN CHOICE: "INA previous" in the
clock after a SETCTRx is the level, one clock earlier, of the pin that the old CTRx selected (R813 is silent, log 35). -/
def Ctr.tick (u : Ctr) (clock : Nat) (cog : Fin 8) (number : Nat) (ins : Bool × Bool) (coin : Nat) : Ctr :=
  let m := u.move clock cog number ins
  { (u.accumulators clock cog number ins).pllStep m.phs coin with
    phs := m.phs, rolling := m.rolls, rolled := u.rolled || m.rolls, adding := m.adds, subbing := m.subs,
    prevA := ins.1, prevB := ins.2 }

/-- OUTA and OUTB. In the LOGIC modes they are the ADD and SUB signals (R813), and in the NCO modes OUTA is PHS[31]
(PRESUMED, G6, log 13). -/
def Ctr.outs (u : Ctr) (clock : Nat) (cog : Fin 8) (number : Nat) : Bool × Bool :=
  let open_ := Config.ctrOuts clock cog number u.cfg u.wav u.phs
  if 16 ≤ u.mode then (u.adding, u.subbing) else if u.mode < 9 then (u.phs.msb, open_.2) else open_

/-- What a counter drives onto a port; nothing while it is off (R819). -/
def Ctr.pins (u : Ctr) (clock : Nat) (cog : Fin 8) (number : Nat) (port : Fin 4) : Word :=
  if u.mode = 0 then 0 else Config.ctrPlace cog number u.cfg (u.outs clock cog number) port

/-- The signal of a WAVE mode at the top nine bits of PHS, advanced by so much (R814). -/
def Ctr.wave (u : Ctr) (advance : BitVec 9) : BitVec 18 :=
  Config.ctrSig (bits u.cfg 0 5) (bits u.phs 23 9 + advance) (bits u.wav 9 9) (bits u.wav 0 9)

/-- SIGA and SIGB after a clock. In a WAVE mode they are one signal, SIGA by the phase advance of WAV ahead (R814); else open
(R819). -/
def Ctr.sigs (u : Ctr) (clock : Nat) (cog : Fin 8) (number : Nat) : BitVec 18 × BitVec 18 :=
  if 12 ≤ u.mode && u.mode < 16 then (u.wave (bits u.wav 23 9), u.wave 0)
  else Config.ctrSigOpen clock cog number ⟨u.cfg, u.wav, u.frq, u.phs⟩ (u.prevA, u.prevB)

/-! ### Video generator (R880 to R893) -/

/-- VCFG[6:5] is not off (R881). -/
def Vid.on (u : Vid) : Bool := bits u.cfg 5 2 != 0

/-- Dot clocks of a command: D[12:0], 0 meaning 8192 (R889). -/
def vidLength (d : Word) : Nat := if bits d 0 13 = 0 then 8192 else (bits d 0 13).toNat

/-- Dot clocks of a pixel: D[19:13], 0 meaning 128 (R889). -/
def vidPixelLength (d : Word) : Nat := if bits d 13 7 = 0 then 128 else (bits d 13 7).toNat

/-- Take the buffered command when none is shown (R892). -/
def Vid.take (u : Vid) : Vid :=
  match u.current, u.next with
  | none, some cmd => { u with current := some cmd, dots := vidLength cmd.1, next := none }
  | _, _ => u

/-- One dot clock: the modulation phase steps (R885), the command counts down, and at its end the buffered one is taken
(R892). -/
def Vid.dot (u : Vid) : Vid :=
  let v := { u with phase := u.phase + 1 }
  match u.current with
  | none => v.take
  | some _ => if 1 < u.dots then { v with dots := u.dots - 1 } else { v with current := none, dots := 0 }.take

/-- An AUX long that VID reads; whether an address of 256 or more wraps is not given, and it reads as `free` (R890, log
37). -/
def vidAux (aux : Sparse Word) (a : Nat) (free : Word) : Word := if a < 256 then auxRead aux (BitVec.ofNat 8 a) else free

/-- Field `k` of a word, its fields being `w` bits wide, lowest first. -/
def fieldAt (v : Word) (w k : Nat) : Nat := v.toNat / 2 ^ (w * k) % 2 ^ w

/-- Pixel number `n` of the command (`d`, `s`): its 8:8:8 colour, and the SYNC byte, which only LIT_RGBS32 has (R890,
R891). Of STR1_RGB9 a 0 takes the colour named first, S[17:9] (DEDUCED, log 37). DESIGN CHOICE: in the STR modes the
starting field that S names counts from the lowest field of the AUX long, and the pixels go upward from it, as R890 says
of the CLU modes only (log 37). -/
def vidPixel (d s : Word) (n : Nat) (aux : Sparse Word) (free : Word) : BitVec 24 × Byte :=
  let mode := bits d 20 4
  let base := (bits d 24 8).toNat
  let look (w : Nat) : Nat := fieldAt s w (min n (32 / w - 1))
  let long (offset : Nat) : BitVec 24 := bits (vidAux aux (base + offset) free) 0 24
  let half : Nat := fieldAt (vidAux aux (base + look 8 / 2) free) 16 (look 8 % 2)
  let stream (w first : Nat) : Nat :=
    let k := first + n
    fieldAt (vidAux aux (base + (bits s 0 8).toNat + k / (32 / w)) free) w (k % (32 / w))
  let nibble := stream 4 (bits s 29 3).toNat
  let byte := stream 8 (bits s 30 2).toNat
  let word := stream 16 (bits s 31 1).toNat
  let colour (raw : Nat) : BitVec 24 := Config.vidColour mode (BitVec.ofNat 16 raw)
  match mode.toNat with
  | 0 => (bits s 8 24, bits s 0 8)
  | 1 => (long (look 1), 0)
  | 2 => (long (look 2), 0)
  | 3 => (long (look 4), 0)
  | 4 => (long (look 8), 0)
  | 5 => (colour (half % 2 ^ 15), 0)
  | 6 => (colour half, 0)
  | 7 => (colour (if stream 1 (bits s 27 5).toNat = 0 then bits s 9 9 else bits s 18 9).toNat, 0)
  | 8 => (colour nibble, 0)
  | 9 => (colour ((bits s 9 3).toNat * 2 ^ 4 + nibble), 0)
  | 10 => (colour byte, 0)
  | 11 => (colour ((bits s 9 3).toNat * 2 ^ 8 + byte), 0)
  | 12 => (colour byte, 0)
  | 13 => (colour (word % 2 ^ 15), 0)
  | 14 => (colour word, 0)
  | _ => (bits (vidAux aux (base + (bits s 0 8).toNat + n) free) 0 24, 0)

/-- A coefficient of the colorspace, extended as VCFG[4] says (R885). -/
def Vid.coefficient (u : Vid) (c : Byte) : Int := if u.cfg.getLsbD 4 then c.toInt else c.toNat

/-- A sum of products of a pixel with the coefficients in `k`, divided by 64, modulo 512 (R885). How a negative sum is
divided is open. -/
def Vid.sum (u : Vid) (k : Word) (rgb : BitVec 24) : BitVec 9 :=
  let t : Int := (bits rgb 16 8).toNat * u.coefficient (bits k 16 8) + (bits rgb 8 8).toNat * u.coefficient (bits k 8 8)
    + (bits rgb 0 8).toNat * u.coefficient (bits k 0 8)
  BitVec.ofInt 9 (if 0 ≤ t || Config.vidFloor then t / 64 else t.tdiv 64)

/-- Twice a byte in nine bits: an offset level or the SYNC byte in a sum of R891. -/
def twice (b : Byte) : BitVec 9 := b ++ 0#1

/-- The signals SIG0 to SIG3 for a pixel (R881, R891). DESIGN CHOICE: VCFG and the coefficients count as they are in the dot
clock, so a SETVID, SETVIDY, SETVIDI or SETVIDQ takes effect in the middle of a command (N32, log 37). -/
def Vid.signals (u : Vid) (rgb : BitVec 24) (sync : Byte) : Quad (BitVec 9) :=
  let y := u.sum u.y rgb
  let i := u.sum u.i rgb
  let q := u.sum u.q rgb
  let yo := twice (bits u.y 24 8)
  let io := twice (bits u.i 24 8)
  let qo := twice (bits u.q 24 8)
  let synced (on : Bool) : BitVec 9 := if on then twice sync else 0
  let rotated := Config.vidChroma i q u.phase
  let luma (added : BitVec 9) : BitVec 9 :=
    if sync.getLsbD 1 then added else if sync.getLsbD 0 then io + added else yo + y + added
  let syn : BitVec 9 := if u.cfg.getLsbD 0 != sync.getLsbD 0 then 511 else 0
  match (bits u.cfg 5 2).toNat with
  | 1 => ⟨syn, qo + q + synced (u.cfg.getLsbD 1), io + i + synced (u.cfg.getLsbD 2), yo + y + synced (u.cfg.getLsbD 3)⟩
  | 2 => ⟨luma 0, qo + rotated, luma rotated, luma rotated⟩
  | _ => Quad.all (luma rotated)

/-- Four signals that are not given. -/
def freeSignals (turn draw : Nat) : Quad (BitVec 9) :=
  (Quad.all ()).mapIdx fun n _ => bits (Config.freeWord turn (draw + n.val)) 0 9

/-- The signals of a dot clock: the pixel it shows, looked up in AUX in the dot clock (R76), through the colorspace and the
modulator (R880). With no command to show they are not given (R892). -/
def Vid.shown (u : Vid) (aux : Sparse Word) (turn draw : Nat) : Quad (BitVec 9) :=
  match u.current with
  | none => freeSignals turn draw
  | some cmd =>
    let n := (vidLength cmd.1 - u.dots) / vidPixelLength cmd.1
    let p := vidPixel cmd.1 cmd.2 n aux (Config.freeWord turn (draw + 4))
    u.signals p.1 p.2

/-- One dot clock: the command goes on and the signals are formed (R880). DESIGN CHOICE: in the same dot clock, since the
length of the pipeline is not given (log 37). -/
def Vid.dotClock (u : Vid) (aux : Sparse Word) (turn draw : Nat) : Vid :=
  { u.dot with sig := u.dot.shown aux turn draw }

/-- So many dot clocks. -/
def Vid.run (u : Vid) (aux : Sparse Word) (turn draw : Nat) : Nat → Vid
  | 0 => u
  | n + 1 => (u.dotClock aux turn draw).run aux turn draw n

/-- One clock with the dot clocks that CTRA's PLL gives; `clocked` says that CTRA is in a PLL mode. Between dot clocks the
signals stay (R880); while VID is off or has no PLL they are not given. DESIGN CHOICE: the command, its dot count and the
phase then stand still, and they go on when VID operates again (log 37). -/
def Vid.tick (u : Vid) (clocked : Bool) (dots : Nat) (aux : Sparse Word) (turn draw : Nat) : Vid :=
  if u.on && clocked then u.run aux turn draw dots else { u with sig := freeSignals turn draw }

/-! ### DAC channels (R830 to R841) -/

/-- The 18-bit source of a channel that is not given to VID: the value, a counter signal, or the sum of two (R830 to
R834). -/
def dacSource (n : Fin 4) (cfg : BitVec 2) (val : BitVec 18) (sa sb : BitVec 18 × BitVec 18) : BitVec 18 :=
  if cfg = 0 then val
  else if cfg = 1 then (match n with | 0 => sa.1 | 1 => sa.2 | 2 => sb.1 | 3 => sb.2)
  else if n = 0 || n = 2 then Config.dacSum sa.1 sb.1 else Config.dacSum sa.2 sb.2

/-- The top nine bits of source plus sign-extended dither (R841). -/
def dither (src : BitVec 18) (lfsr : Word) : BitVec 9 := bits (src + (Config.lfsrDither lfsr).signExtend 18) 9 9

/-- What channel `n` puts out: the video signal as it is, any other source dithered (R830, R841). -/
def Dac.channel (u : Dac) (n : Fin 4) (sa sb : BitVec 18 × BitVec 18) (sig : Quad (BitVec 9)) : BitVec 9 :=
  if u.cfg.get n = 3 then sig.get n else dither (dacSource n (u.cfg.get n) (u.val.get n) sa sb) u.lfsr

/-- One clock of the DAC channels, with the signals of CTRA, CTRB and VID. -/
def Dac.tick (u : Dac) (sa sb : BitVec 18 × BitVec 18) (sig : Quad (BitVec 9)) : Dac :=
  let v := { u with lfsr := Config.lfsrNext u.lfsr }
  { v with out := v.cfg.mapIdx fun n _ => v.channel n sa sb sig }

/-! ### Trace (R870, R975, R976) -/

/-- What the trace of a cog drives onto a port. Of the 32-bit form only PC[15..0] is placed (D25). What PC shows in a clock in
which the instruction does not finish is open (R976). -/
def traceWord (cfg : BitVec 4) (t : Stage4) (turn : Nat) (cog : Fin 8) (port : Fin 4) : Word :=
  let free := Config.traceBits turn cog cfg
  let pc : Addr := if t.go then t.pc else bits free 0 16
  if (bits cfg 1 2).toFin ≠ port then 0
  else if cfg.getLsbD 3 then
    let half : BitVec 16 := (BitVec.ofFin t.task : BitVec 2) ++ (BitVec.ofBool t.hub ++ (BitVec.ofBool t.fetch
      ++ (BitVec.ofBool t.go ++ (BitVec.ofBool t.cond ++ (BitVec.ofBool t.jump ++ bits pc 0 9)))))
    if cfg.getLsbD 0 then half ++ 0#16 else 0#16 ++ half
  else if cfg.getLsbD 0 then bits free 16 16 ++ pc
  else 0

end Sys2Proof.Machine
end

