-- ==== Sys2Proof/Machine/Ops.lean ====
section
/-!
DEFINITION. The named operations every meaning is built from: hub memory, the current cog and task, registers, the end
of an instruction cycle, branches, waiting, hub cycles, starting and stopping cogs, chip reset, instruction fetch, and
one clock of the machine.

TAKING AN EXCEPTION. There is none to take: the hardware has no exception, trap, interrupt or privilege level (R950,
R952, R960), so no such operation stands here. What redirects execution from outside a task is JMPTASK
(`State.jumpTasks`), COGNEW/COGINIT (`State.startCog`), COGSTOP (`State.stopCog`) and CLKSET's reset
(`State.chipReset`) (R954).
-/

set_option Elab.async false

namespace Sys2Proof.Machine

open Sys2Proof

/-- What a meaning answers. -/
abbrev Out := Host.Outcome State Fault Refusal

/-! ### Hub memory (R31, R120 to R128) -/

/-- The first 32 ROM bytes (R124), lowest address first. -/
def romHead : List Byte :=
  [0x50, 0x72, 0x6F, 0x70, 0x32, 0x2E, 0x30, 0x20, 0x00, 0x20, 0x7C, 0x0C, 0x03, 0xCC, 0x7C, 0x0C,
   0x45, 0xFE, 0xC1, 0x0D, 0xE3, 0xB6, 0xFC, 0x0C, 0x01, 0xC6, 0x7C, 0x0C, 0x01, 0xC6, 0x7C, 0x0D]

/-- The first RAM address (R31). -/
def ramBase : Nat := 0x00E00

/-- One past the last hub address (R31). -/
def hubSize : Nat := 0x40000

/-- What a hub address that memory does not list reads as: the ROM image below $00E00 (R124), 0 in RAM (log 3). -/
def Memory.unlisted (a : Nat) : Byte :=
  if a < ramBase then (romHead[a]?).getD (Config.romByte a) else 0

/-- The canonical form of hub memory: RAM addresses only, strictly rising, no entry that reads as unlisted. -/
abbrev Memory.wf (m : Memory) : Bool := Sparse.wfFrom Memory.unlisted hubSize ramBase m

/-- One byte of hub memory. -/
def Memory.byte (m : Memory) (a : Nat) : Byte := Sparse.read Memory.unlisted m a

/-- Write one byte; the ROM does not change (D17, log 4). -/
def Memory.setByte (m : Memory) (a : Nat) (v : Byte) : Memory :=
  if a < ramBase then m else if a < hubSize then Sparse.write Memory.unlisted m a v else m

/-- The word at an even address, little-endian (R123). -/
def Memory.word (m : Memory) (a : Nat) : BitVec 16 := m.byte (a + 1) ++ m.byte a

/-- The long at an address that is a multiple of four, little-endian (R123). -/
def Memory.long (m : Memory) (a : Nat) : Word := m.byte (a + 3) ++ (m.byte (a + 2) ++ (m.byte (a + 1) ++ m.byte a))

def Memory.setWord (m : Memory) (a : Nat) (v : BitVec 16) : Memory :=
  (m.setByte a (bits v 0 8)).setByte (a + 1) (bits v 8 8)

def Memory.setLong (m : Memory) (a : Nat) (v : Word) : Memory :=
  (((m.setByte a (bits v 0 8)).setByte (a + 1) (bits v 8 8)).setByte (a + 2) (bits v 16 8)).setByte (a + 3) (bits v 24 8)

/-- The eight longs of a wide; element 0 is at the lowest address (D15). -/
def Memory.wide (m : Memory) (a : Nat) : Octet Word :=
  ⟨m.long a, m.long (a + 4), m.long (a + 8), m.long (a + 12), m.long (a + 16), m.long (a + 20), m.long (a + 24),
    m.long (a + 28)⟩

def Memory.setWide (m : Memory) (a : Nat) (w : Octet Word) : Memory :=
  (((((((m.setLong a w.e0).setLong (a + 4) w.e1).setLong (a + 8) w.e2).setLong (a + 12) w.e3).setLong (a + 16)
    w.e4).setLong (a + 20) w.e5).setLong (a + 24) w.e6).setLong (a + 28) w.e7

/-- The aligned addresses of R126. -/
def alignWord (a : HubAddr) : Nat := a.toNat / 2 * 2
def alignLong (a : HubAddr) : Nat := a.toNat / 4 * 4
def alignWide (a : HubAddr) : Nat := a.toNat / 32 * 32

/-- The hub after a write that turned memory into `m`: the longs from `a` on, `n` of them, that changed are
remembered with their old value, for the stale fetches of U10. -/
def Hub.remember (h : Hub) (m : Memory) (a : Nat) : Nat → List (Nat × Word)
  | 0 => h.hist
  | n + 1 =>
    let rest := Hub.remember h m (a + 4) n
    if h.mem.long a = m.long a then rest else (a / 4, h.mem.long a) :: rest

def Hub.writeByte (h : Hub) (a : HubAddr) (v : Byte) : Hub :=
  let m := h.mem.setByte a.toNat v
  { h with mem := m, hist := h.remember m (alignLong a) 1 }

def Hub.writeWord (h : Hub) (a : HubAddr) (v : BitVec 16) : Hub :=
  let m := h.mem.setWord (alignWord a) v
  { h with mem := m, hist := h.remember m (alignLong a) 1 }

def Hub.writeLong (h : Hub) (a : HubAddr) (v : Word) : Hub :=
  let m := h.mem.setLong (alignLong a) v
  { h with mem := m, hist := h.remember m (alignLong a) 1 }

def Hub.writeWide (h : Hub) (a : HubAddr) (w : Octet Word) : Hub :=
  let m := h.mem.setWide (alignWide a) w
  { h with mem := m, hist := h.remember m (alignWide a) 8 }

/-! ### The current cog and its current task -/

/-- The cog whose turn it is. -/
def State.cog (s : State) : Cog := s.cogs.get s.cur

/-- The machine with that cog replaced. -/
def State.setCog (s : State) (c : Cog) : State := { s with cogs := s.cogs.set s.cur c }

/-- Time slots of a schedule: one, or up to the highest pair that is not %00 (R48). -/
def slotCount (w : Word) : Nat := if w = 0 then 1 else Nat.log2 w.toNat / 2 + 1

/-- The task of a time slot (R48). -/
def slotTask (w : Word) (slot : Nat) : Fin 4 := (bits w (2 * slot) 2).toFin

/-- The task whose instruction is in stage 4. -/
def Cog.cur (c : Cog) : Fin 4 := slotTask c.sched.slots c.sched.slot

/-- That task's flags, PC, stack and latches. -/
def Cog.task (c : Cog) : Task := c.tasks.get c.cur

def Cog.setTask (c : Cog) (k : Task) : Cog := { c with tasks := c.tasks.set c.cur k }

/-- Multi-task mode: TASK is not zero (R393, D9, log 42). -/
def Cog.multiTask (c : Cog) : Bool := c.sched.task != 0

def State.task (s : State) : Task := s.cog.task

/-! ### Flags (R55, R173) -/

/-- A task with Z and C written where the instruction asks for it. -/
def Task.setFlags (k : Task) (wz wc z c : Bool) : Task :=
  { k with z := if wz then z else k.z, c := if wc then c else k.c }

def Cog.setFlags (x : Cog) (wz wc z c : Bool) : Cog := x.setTask (x.task.setFlags wz wc z c)

/-! ### Pins (R40 to R42, R58) -/

/-- What a cog's peripherals drive onto a port in the clock that begins (R41): XFR the word of that clock (R852), the others
what they show at the end of the clock before (log 33). -/
def Cog.periph (c : Cog) (s : State) (k : Fin 8) (port : Fin 4) : Word :=
  pinWord c.sera.txPin c.sera.txLevel port ||| pinWord c.serb.txPin c.serb.txLevel port
    ||| c.ctra.pins s.clock k 0 port ||| c.ctrb.pins s.clock k 1 port ||| c.xfr.driveNext c.wide.regs c.aux c.ptry port
    ||| traceWord c.trace c.stage4 s.turn k port

/-- A cog's output long for a port; a cog that does not run drives nothing (R41, R298). -/
def Cog.portOut (c : Cog) (s : State) (k : Fin 8) (port : Fin 4) : Word :=
  if c.run = .running then (c.ports.out.get port ||| c.periph s k port) &&& c.ports.dir.get port else 0

/-- A cog's direction long for a port. -/
def Cog.portDir (c : Cog) (port : Fin 4) : Word := if c.run = .running then c.ports.dir.get port else 0

/-- The pins that a port connects to outside: all of ports A and B, 28 of port C, none of port D (R40, R781). -/
def padMask (port : Fin 4) : Word := if port = 2 then 0x0FFFFFFF#32 else if port = 3 then 0 else 0xFFFFFFFF#32

/-- The OR of eight longs. -/
def orAll (q : Octet Word) : Word := q.toList.foldl (· ||| ·) 0

/-- The bits that are 1 in exactly one of eight longs. -/
def inOne (q : Octet Word) : Word :=
  let r := q.toList.foldl (fun (a : Word × Word) w => (a.1 ||| w, a.2 ||| (a.1 &&& w))) (0, 0)
  r.1 &&& ~~~r.2

/-- What the chip drives on the external pins: the outputs of all cogs ORed (R41). -/
def State.driven (s : State) : Drive :=
  let dirs (p : Fin 4) : Octet Word := s.cogs.mapIdx fun _ c => c.portDir p &&& padMask p
  { out := (Quad.all ()).mapIdx fun p _ => orAll (s.cogs.mapIdx fun k c => c.portOut s k p &&& padMask p)
    dir := (Quad.all ()).mapIdx fun p _ => orAll (dirs p)
    sole := (Quad.all ()).mapIdx fun p _ => inOne (dirs p) }

/-- The pins at which two drives differ in level or in whether one cog alone drives them. -/
def Drive.differs (a b : Drive) : Quad Word :=
  (Quad.all ()).mapIdx fun p _ => (a.out.get p ^^^ b.out.get p) ||| (a.sole.get p ^^^ b.sole.get p)

/-- The pads when a new drive holds from a clock on. -/
def Pads.become (p : Pads) (clock : Nat) (d : Drive) : Pads :=
  let m := d.differs p.drive
  { drive := d, changes := if m = Quad.all 0 then p.changes else (clock, m) :: p.changes }

/-- The pins of a port whose drive changed less than PIN_DELAY clocks ago (D26): a write in one clock is driven from the
next, so the delay is one clock more than Config.pinDelay. -/
def Pads.recent (p : Pads) (clock : Nat) (port : Fin 4) : Word :=
  (p.changes.filter fun e => decide (clock < e.1 + Config.pinDelay)).foldl (fun w e => w ||| e.2.get port) 0

/-- The levels of an external port: PIN_ENV, where a pin that one cog alone and nothing outside drives reads back its
level after PIN_DELAY (R40, D10, D26, log 33). -/
def State.padLong (s : State) (port : Fin 4) : Word :=
  let d := s.pads.drive
  let own := d.sole.get port &&& ~~~(Config.pinOutside s.clock port) &&& ~~~(s.pads.recent s.clock port)
  (d.out.get port &&& own) ||| (Config.pinEnv s.clock d.out d.dir port &&& ~~~own)

/-- PIND: each byte is the OR of the selected cogs' port D bytes, both as they were on the third clock before
(R58, R942, log 34). -/
def State.exchange (s : State) (c : Cog) : Word :=
  let byteOf (j : Nat) : Byte :=
    (s.cogs.mapIdx fun k o =>
      if c.ports.xch3.getLsbD (8 * j + k.val) then bits o.ports.d3 (8 * j) 8 else (0 : Byte)).toList.foldl (· ||| ·) 0
  byteOf 3 ++ (byteOf 2 ++ (byteOf 1 ++ byteOf 0))

/-- The pin input long of a port as a cog reads it now (R40). Pins 92 to 95 do not exist and read as anything;
DESIGN CHOICE: as one value in each turn (log 33). -/
def State.pinLong (s : State) (c : Cog) (port : Fin 4) : Word :=
  if port = 3 then s.exchange c
  else (s.padLong port &&& padMask port) ||| (Config.freeWord s.turn 0x1300 &&& ~~~(padMask port))

/-- The level of one pin, 0..127 (R781). -/
def State.pinIn (s : State) (c : Cog) (p : BitVec 7) : Bool :=
  (s.pinLong c (bits p 5 2).toFin).getLsbD (bits p 0 5).toNat

/-! ### Registers (R36, R37) -/

/-- Is a register address $1F2 or $1F3? -/
def isWindow (a : RegAddr) : Bool := a == 0x1F2#9 || a == 0x1F3#9

/-- Is an address inside a mapped window of eight? -/
def inWindow (base : RegAddr) (mapped : Bool) (a : RegAddr) : Bool :=
  mapped && decide (base.toNat ≤ a.toNat) && decide (a.toNat ≤ base.toNat + 7)

/-- The register under the WIDE window (R36 (2) to (5)); $1F2 and $1F3 read as a free value (U7). -/
def State.plainReg (s : State) (c : Cog) (a : RegAddr) : Word :=
  if a.toNat < 0x1F2 then c.ram.read zeroes a.toNat
  else if a.toNat < 0x1F4 then Config.freeWord s.turn (0x1000 + a.toNat)
  else if a.toNat < 0x1F8 then s.pinLong c (bits a 0 2).toFin
  else if a.toNat < 0x1FC then c.ports.out.get (bits a 0 2).toFin
  else c.ports.dir.get (bits a 0 2).toFin

/-- The WIDE register a window address names. -/
def wideOf (w : Octet Word) (base a : RegAddr) : Word := w.get (bits (a - base) 0 3).toFin

/-- The WIDE contents a read through a window sees: the present ones, or shortly after a reload any of the earlier ones
(R1003); which, is free (log 10). -/
def Wide.seen (w : Wide) (coin : Nat) : Octet Word :=
  match (w.olds.filter fun o => o.left ≠ 0).map OldWides.regs with
  | [] => w.regs
  | r :: rest => (((w.regs :: r :: rest))[coin % (rest.length + 2)]?).getD w.regs

/-- An earlier window over an address, through which a read is still open (R1004). -/
def Wide.before (w : Wide) (a : RegAddr) : Option OldWindow :=
  w.oldWindows.find? fun o => decide (o.left ≠ 0) && inWindow o.base true a

/-- A register read through D or S (R36). For two instructions after SETWIDE a read in the new window, or in one before
it, may see the WIDE or the register (R1004); which, is free (log 10). -/
def State.readReg (s : State) (c : Cog) (a : RegAddr) : Word :=
  let w := c.wide
  let now := inWindow w.base w.mapped a
  let regs := w.seen (Config.freeIndex s.turn (0x2000 + a.toNat))
  let coin := Config.freeBit s.turn (0x1000 + a.toNat)
  match w.before a with
  | some o => if coin then s.plainReg c a else wideOf regs (if now then w.base else o.base) a
  | none => if now && !(decide (w.moveLeft ≠ 0) && coin) then wideOf regs w.base a else s.plainReg c a

/-- The register file and ports with one register written, without the window or the latches. -/
def Cog.putPlain (c : Cog) (a : RegAddr) (v : Word) : Cog :=
  if a.toNat < 0x1F2 then { c with ram := c.ram.write zeroes a.toNat v, rom := c.rom &&& ~~~(1#512 <<< a.toNat) }
  else if a.toNat < 0x1F8 then c
  else if a.toNat < 0x1FC then { c with ports := { c.ports with out := c.ports.out.set (bits a 0 2).toFin v } }
  else { c with ports := { c.ports with dir := c.ports.dir.set (bits a 0 2).toFin v } }

/-- The register itself, under a mapped WIDE too (R153); the long of register RAM under $1F2 to $1F7 (R38). -/
def Cog.stored (c : Cog) (a : RegAddr) : Word :=
  if a.toNat < 0x1F8 then c.ram.read zeroes a.toNat
  else if a.toNat < 0x1FC then c.ports.out.get (bits a 0 2).toFin
  else c.ports.dir.get (bits a 0 2).toFin

/-- A register write (R37): through the mapped window also to the WIDE; the last-written-D latch takes the value
(R53). -/
def Cog.writeReg (c : Cog) (a : RegAddr) (v : Word) : Cog :=
  let w := if inWindow c.wide.base c.wide.mapped a
    then { c.wide with regs := c.wide.regs.set (bits (a - c.wide.base) 0 3).toFin v } else c.wide
  { c.putPlain a v with lastD := v, wide := w }

/-! ### The end of an instruction cycle -/

/-- The address after an instruction that does not branch, and the repeater after it (R404). -/
def Repeater.after (r : Repeater) (pc : Addr) : Addr × Repeater :=
  if r.active && pc == r.last then
    match r.left with
    | .infinite => (r.first, r)
    | .count 0 => (pc + 1, { r with active := false })
    | .count (n + 1) => (r.first, { r with left := .count n })
  else (pc + 1, r)

/-- A task after an instruction that does not branch: the repeater (R404) and a waiting delayed branch (R451). -/
def Task.advance (k : Task) : Task :=
  let n := k.rep.after k.pc
  if k.dlyCount = 1 then { k with pc := k.dlyTarget, dlyCount := 0, rep := n.2 }
  else { k with pc := n.1, rep := n.2, dlyCount := k.dlyCount - 1 }

/-- The next time slot, or a new schedule from its first slot (R48, R394). -/
def Sched.advance (q : Sched) : Sched :=
  let moved : Sched :=
    match q.q1 with
    | some w => { q with slots := w, slot := 0 }
    | none => { q with slot := if q.slot + 1 < slotCount q.slots then q.slot + 1 else 0 }
  { moved with q1 := q.q2, q2 := q.q3, q3 := q.q4, q4 := q.q5, q5 := none }

/-- The instruction in stage 4 is done: it holds the stage for `stall` clocks more. -/
def Pipe.advance (p : Pipe) (stall : Nat) : Pipe :=
  { p with took1 := p.waited + 1 + stall, took2 := p.took1, waiting := none, waited := 0, stall := stall }

/-- The earlier contents and windows one instruction cycle later: those whose count runs out are gone. -/
def Wide.endCycle (w : Wide) : Wide :=
  { w with
    olds := (w.olds.filter fun o => 1 < o.left).map fun o => { o with left := o.left - 1 }
    oldWindows := (w.oldWindows.filter fun o => 1 < o.left).map fun o => { o with left := o.left - 1 }
    moveLeft := w.moveLeft - 1 }

/-- The end of an instruction cycle of a cog, apart from the task's PC: time slot, pipeline, SETMAP delay (R932) and
the WIDE hazard counts. -/
def Cog.endCycle (c : Cog) (stall : Nat) : Cog :=
  { c with
    sched := c.sched.advance
    pipe := c.pipe.advance stall
    remap := { c.remap with m1 := c.remap.map, m2 := c.remap.m1, eff := c.remap.m2 }
    wide := c.wide.endCycle }

/-- The end of an instruction that does not branch. -/
def Cog.retire (c : Cog) (stall : Nat) : Cog := (c.setTask c.task.advance).endCycle stall

/-- The current cog becomes `c`, and its instruction ends without a branch. DESIGN CHOICE: an instruction of several clocks
changes everything, OUTx and DIRx among it, in the first of them (a hub instruction in its hub clock), and `stall` clocks
follow in which it only holds stage 4 (R139, R942 and R1020 do not say in which clock it writes, log 6). -/
def State.finish (s : State) (c : Cog) (stall : Nat := 0) : Out := .next (s.setCog (c.retire stall))

/-- The same with a D result: a write at $1F2 or $1F3 is refused (U7). -/
def State.finishD (s : State) (c : Cog) (d : RegAddr) (v : Word) (stall : Nat := 0) : Out :=
  if isWindow d then .refused .indirectWindow else s.finish (c.writeReg d v) stall

/-! ### Branches (R391, R451) -/

/-- The schedule so many instruction cycles on. -/
def Sched.later (q : Sched) (n : Nat) : Sched := Nat.iterate Sched.advance n q

/-- The task whose instruction executes so many instruction cycles from now (R390). -/
def Cog.taskLater (c : Cog) (n : Nat) : Fin 4 := slotTask (c.sched.later n).slots (c.sched.later n).slot

/-- The address from which stage 1 is fetching, if it is for task `t`: as many instructions of the task are in between as
wait in the queue, and the one in stage 4 if it is of the task. -/
def Cog.fetchAddr (c : Cog) (t : Fin 4) : Addr :=
  let ahead := c.pipe.queue.countP (fun e => e.task == t && !e.cancelled) + (c.cur == t).toNat
  (Nat.iterate Task.advance ahead (c.tasks.get t)).pc

/-- The instructions of a task in the pipeline are cancelled (R391): those waiting, and the one that stage 1 is fetching
in this instruction cycle, which passes through as a cancelled entry. -/
def Cog.cancel (c : Cog) (t : Fin 4) : List Slot :=
  let q := c.pipe.queue.map fun e => if e.task = t then { e with cancelled := true } else e
  if q.length < 3 && c.taskLater (q.length + 1) == t then q ++ [⟨0, t, c.fetchAddr t, true, false⟩] else q

/-- Is the D field of a word a register operand? By the rows of R190 and R192: not an immediate (L), not the constant of
WAITVID #n, REPS, AUGS, AUGD or %1111110, not a don't-care field (R186), not a word of no row (R195). -/
def wordHasRegisterD (w : Word) : Bool :=
  let op := (bits w 25 7).toNat
  let code := (bits w 0 9).toNat
  let b24 := w.getLsbD 24
  let b23 := w.getLsbD 23
  if op < 96 then true
  else if op < 100 then !b23 || (decide (op = 99) && b24)
  else if op < 104 then true
  else if op < 123 then !b23
  else if op < 125 then true
  else if op = 125 then !b24 && !(b23 && w.getLsbD 22)
  else if op = 126 then false
  else
    let zFree := decide (code < 0x40) || decide (0xF4 ≤ code) || [0x88, 0x89, 0x90].contains code
    let cFree := decide (code < 0x40) || decide (0xF4 ≤ code) || decide (0x88 ≤ code ∧ code ≤ 0x90)
      || [0x82, 0x83].contains code
    let assigned := decide (code < 0x31) || decide (0x40 ≤ code ∧ code < 0xDD) || decide (0xF4 ≤ code ∧ code < 0x100)
    assigned && !w.getLsbD 22 && (zFree || !b24) && (cFree || !b23)

/-- Is the S field of a word a register operand (R190)? -/
def wordHasRegisterS (w : Word) : Bool :=
  (decide ((bits w 25 7).toNat < 125) || bits w 23 9 == 0b1111101_00#9) && !w.getLsbD 22

/-- Is a word a FIXINDx or SETINDx (R193)? -/
def wordIsInd (w : Word) : Bool :=
  bits w 22 10 == 0b1111110_000#10 && !([0b0000#4, 0b0110#4, 0b0111#4, 0b1001#4, 0b1101#4].contains (bits w 18 4))

/-- Does a word change INDA or INDB when it is decoded: an indirect operand with a modifier, a FIXINDx or a SETINDx (R180,
R1005, log 12)? -/
def wordStepsInd (w : Word) : Bool :=
  (wordHasRegisterD w && isWindow (bits w 9 9) && bits w 20 2 != 0)
    || (wordHasRegisterS w && isWindow (bits w 0 9) && bits w 18 2 != 0) || wordIsInd w

/-- Is a word a REPS? -/
def wordIsReps (w : Word) : Bool := bits w 22 10 == 0b1111101011#10

/-- Does a word act in stage 2, before a branch just ahead of it is taken (R1005)? -/
def wordActsEarly (w : Word) : Bool := wordStepsInd w || wordIsReps w

/-- The words of task `t` that a branch cancels behind stage 2: of the next two instructions those of the task, as fetched
(R1005). -/
def Cog.shadow (c : Cog) (t : Fin 4) : List Word :=
  ((c.pipe.queue.take 2).filter fun e => e.task == t && !e.cancelled).map Slot.word

/-- Task `t` goes on at `target`: its instructions in the pipeline are cancelled, its repeater stops, a waiting
delayed branch is dropped (R391, R395, R405). INDA, INDB and the task's repeater are all free where a cancelled word acts in
stage 2 (R1005, U59, log 12). For the executing task this is a jump that the trace shows (R976). -/
def State.redirect (s : State) (c : Cog) (t : Fin 4) (target : Addr) : Cog :=
  let early := (c.shadow t).any wordActsEarly
  let k := c.tasks.get t
  let f (j : Nat) : Word := Config.freeWord s.turn (0x3000 + 16 * t.val + j)
  let rep : Repeater :=
    if early then
      ⟨Config.freeBit s.turn (0x3000 + t.val), bits (f 6) 0 16, bits (f 7) 0 16,
        if Config.freeBit s.turn (0x3004 + t.val) then .infinite else .count (f 8).toNat⟩
    else { k.rep with active := false }
  { c with
    inda := if early then ⟨bits (f 0) 0 9, bits (f 1) 0 9, bits (f 2) 0 9⟩ else c.inda
    indb := if early then ⟨bits (f 3) 0 9, bits (f 4) 0 9, bits (f 5) 0 9⟩ else c.indb
    tasks := c.tasks.set t { k with pc := target, rep := rep, dlyCount := 0 }
    pipe := { c.pipe with queue := c.cancel t }
    stage4 := { c.stage4 with jump := c.stage4.jump || t == c.cur } }

/-- A taken normal branch of the current task (R391, R405). Behind a delayed branch that still waits it is refused
(U43). -/
def State.branch (s : State) (c : Cog) (target : Addr) (stall : Nat := 0) : Out :=
  if c.task.dlyCount ≠ 0 then .refused .delaySlot
  else .next (s.setCog ((s.redirect c c.cur target).endCycle stall))

/-- The cog after a taken delayed branch of the current task to `target` (R451): three more of its instructions execute
first; its repeater stops (R405). -/
def Cog.delayed (c : Cog) (target : Addr) : Cog :=
  let k := c.task
  { c.setTask { k with pc := k.pc + 1, rep := { k.rep with active := false }, dlyTarget := target, dlyCount := 3 } with
    stage4 := { c.stage4 with jump := true } }

/-- A taken delayed branch of the current task. Behind a delayed branch that still waits it is refused (U43). -/
def State.branchD (s : State) (c : Cog) (target : Addr) (stall : Nat := 0) : Out :=
  if c.task.dlyCount ≠ 0 then .refused .delaySlot else .next (s.setCog ((c.delayed target).endCycle stall))

/-- A conditional branch that is executed and not taken. Inside a repeat block, one that runs from $FFFF on to $0000
among them, it may or may not end the repeating (R405, U41, log 25). -/
def State.fallThrough (s : State) (c : Cog) (stall : Nat := 0) : Out :=
  let k := c.task
  let inside := k.rep.active && decide ((k.pc - k.rep.first).toNat ≤ (k.rep.last - k.rep.first).toNat)
  if inside then
    s.finish (c.setTask { k with rep := { k.rep with active := Config.freeBit s.turn 0x3100 } }) stall
  else s.finish c stall

/-- JMPTASK: every task of a mask goes on at `target` (R395). For the executing task this is a normal branch; a delayed
branch of its own that still waits is dropped with the rest (log 26). -/
def State.jumpTasks (s : State) (mask : BitVec 4) (target : Addr) : Out :=
  let one (c : Cog) (t : Fin 4) : Cog := if mask.getLsbD t.val then s.redirect c t target else c
  let c := one (one (one (one s.cog 0) 1) 2) 3
  if mask.getLsbD s.cog.cur.val then .next (s.setCog (c.endCycle 0)) else s.finish c

/-! ### Waiting (R398, R425) -/

/-- The instruction stays in stage 4 for another clock: nothing changes but that its operands are kept. -/
def State.hold (s : State) (o : Operands) (pin : Bool := false) : Out :=
  let c := s.cog
  .next (s.setCog { c with pipe := { c.pipe with waiting := some ⟨o, pin⟩, waited := c.pipe.waited + 1 } })

/-- An instruction that waits by stalling in single-task mode and by jumping to itself in multi-task mode (R398). -/
def State.waitFor (s : State) (o : Operands) (ready : Bool) (go : State → Out) : Out :=
  if ready then go s else if s.cog.multiTask then s.branch s.cog s.task.pc else s.hold o

/-- Does the current cog own the hub in this clock (R135)? -/
def State.ownsHub (s : State) : Bool := s.hub.rot.toFin == s.cur

/-- A hub instruction: it waits for its cog's hub cycle, in either mode (R135, R290). -/
def State.atHub (s : State) (o : Operands) (go : State → Out) : Out := if s.ownsHub then go s else s.hold o

/-! ### Cogs (R296, R298, R990) -/

/-- The longs of a hub image as register RAM, from register `i` on (R296). -/
def loadImage (m : Memory) (base : HubAddr) : (count i : Nat) → Sparse Word
  | 0, _ => []
  | n + 1, i =>
    let v := m.long (alignLong (base + BitVec.ofNat 18 (4 * i)))
    if v = 0 then loadImage m base n (i + 1) else (i, v) :: loadImage m base n (i + 1)

/-- Clocks from a start to the first instruction (R296). -/
def loadClocks : Nat := 1017

/-- Is a hub byte address one of the ROM longs from $00008 on, which a model must not execute (R124)? -/
def isRomCode (a : Nat) : Bool := decide (8 ≤ a) && decide (a < ramBase)

/-- Which of the first `count` registers of an image hold such a long. -/
def romRegisters (base : HubAddr) : (count : Nat) → BitVec 512
  | 0 => 0
  | n + 1 =>
    (if isRomCode (alignLong (base + BitVec.ofNat 18 (4 * n))) then 1#512 <<< n else 0) ||| romRegisters base n

/-- StartCog(k, pgm, par): the image is read now, as one snapshot (R296, D20, log 44); a long that is overwritten while
the cog loads is settled when it begins to run (`Cog.settle`). -/
def State.startCog (s : State) (k : Fin 8) (pgm par : Word) : State :=
  let base : HubAddr := bits pgm 0 18 &&& 0x3FFFC#18
  let old := s.cogs.get k
  let c := Cog.start (.loading loadClocks) (loadImage s.hub.mem base 0x1F4 0) (romRegisters base 0x1F4) old.aux old.ports
    (bits par 0 18) base s.hub.hist.length
  { s with cogs := s.cogs.set k c }

/-- A stopped cog (R298). -/
def State.stopCog (s : State) (k : Fin 8) : State :=
  { s with cogs := s.cogs.set k (Cog.stopped (s.cogs.get k).aux (s.cogs.get k).ports) }

/-- Chip reset: every cog stops, CLK is cleared, and the machine goes on from BOOT_STATE (R990, R991, log 1). DESIGN
CHOICE: hub memory and each AUX, whose contents after a reset are arbitrary (R44, R75), stay as they are (log 45). -/
def State.chipReset (s : State) : State :=
  let cogs := s.cogs.mapIdx fun _ c => Cog.stopped c.aux c.ports
  let c0 := Cog.start .running (loadImage s.hub.mem 0x00E00#18 0x1F4 0) 0 cogs.e0.aux cogs.e0.ports 0 0x00E00#18
    s.hub.hist.length
  { s with hub := Hub.start s.hub.mem s.hub.hist, cogs := { cogs with e0 := c0 } }

/-! ### Instruction fetch (R150 to R153, R1001) -/

/-- The long of a line at an instruction address. -/
def CacheLine.long (l : CacheLine) (p : Addr) : Word := l.longs.get (bits p 0 3).toFin

/-- Is a line the valid copy of the block that holds an instruction address? -/
def CacheLine.hits (l : CacheLine) (p : Addr) : Bool := l.valid && l.tag == bits p 3 13

/-- The line that holds an instruction address, if any. -/
def ICache.find? (q : ICache) (p : Addr) : Option (Fin 4) :=
  if q.lines.e0.hits p then some 0
  else if q.lines.e1.hits p then some 1
  else if q.lines.e2.hits p then some 2
  else if q.lines.e3.hits p then some 3
  else none

/-- The line to replace: an invalid one, else the one used longest ago (R150). -/
def ICache.victim (q : ICache) : Fin 4 :=
  let l := q.lines
  if !l.e0.valid then 0 else if !l.e1.valid then 1 else if !l.e2.valid then 2 else if !l.e3.valid then 3
  else if l.e1.age ≤ l.e0.age && l.e2.age ≤ l.e0.age && l.e3.age ≤ l.e0.age then 0
  else if l.e2.age ≤ l.e1.age && l.e3.age ≤ l.e1.age then 1
  else if l.e3.age ≤ l.e2.age then 2 else 3

/-- A line has just been used: it becomes the youngest. -/
def ICache.touch (q : ICache) (i : Fin 4) : ICache :=
  { q with lines := q.lines.mapIdx fun j l =>
      if j = i then { l with age := 0 } else if l.age < (q.lines.get i).age then { l with age := l.age + 1 } else l }

/-- Load the block of an instruction address into the victim line. -/
def ICache.load (q : ICache) (m : Memory) (p : Addr) : ICache :=
  let i := q.victim
  let line : CacheLine := ⟨true, bits p 3 13, m.wide (32 * (bits p 3 13).toNat), 4⟩
  { q with lines := q.lines.set i line }.touch i

/-- The values a hub long has held since the cog's last ICACHEX or start, apart from the current one (U10). -/
def Hub.heldSince (h : Hub) (since : Nat) (long : Nat) : List Word :=
  ((h.hist.take (h.hist.length - since)).filter fun e => e.1 = long).map Prod.snd

/-- A hub instruction fetch that hits: the long of the line, unless the hub long has been overwritten since the last
ICACHEX; then any value it has held since, for prefetch may have sampled it at any time (R150, U10, log 30). -/
def State.hubWord (s : State) (q : ICache) (i : Fin 4) (p : Addr) (draw : Nat) : Word :=
  let line := (q.lines.get i).long p
  let held := s.hub.heldSince q.since p.toNat
  if held.isEmpty then line
  else
    let all := line :: s.hub.mem.long (4 * p.toNat) :: held
    (all[Config.freeIndex s.turn draw % all.length]?).getD line

/-- The word of a register as stage 1 reads it: never a mapped WIDE (R153); any value at $1F2 and $1F3 (U7). -/
def State.registerWord (s : State) (c : Cog) (a : RegAddr) (draw : Nat) : Word :=
  if isWindow a then Config.freeWord s.turn draw
  else if 0x1F4 ≤ a.toNat && a.toNat < 0x1F8 then s.pinLong c (bits a 0 2).toFin
  else c.stored a

/-- A fetched word: whether it is a ROM long (R124), and the instruction cache afterwards, in which the line that served
it is the youngest (R150). -/
structure Fetched where
  word : Word
  rom : Bool
  icache : ICache

/-- Fetch the word at an address; nothing where the instruction cache does not hold it (R150). What is fetched at $1F2 and
$1F3 is any word, whatever was loaded there (U7), so no ROM long. -/
def State.fetch (s : State) (c : Cog) (q : ICache) (p : Addr) (draw : Nat) : Option Fetched :=
  if p.toNat < 0x200 then some ⟨s.registerWord c (bits p 0 9) draw, c.rom.getLsbD p.toNat && !isWindow (bits p 0 9), q⟩
  else
    match q.find? p with
    | some i => some ⟨s.hubWord q i p draw, isRomCode (4 * p.toNat), q.touch i⟩
    | none => none

/-! ### The queue (R74, R390, R1000, R1012) -/

/-- A queue, the instruction cache after its fetches, and the address that the cache does not hold, if one was missed. -/
structure Filled where
  queue : List Slot
  icache : ICache
  missing : Option Addr

/-- The queue for the next `n` instruction cycles: `q` gives their time slots, `ts` the tasks as they will be then,
`old` the instructions already fetched. A cancelled one passes through. One that is where its task will be stands as it
was fetched; any other is fetched now (log 7). -/
def State.fillQueue (s : State) (c : Cog) : (n : Nat) → Sched → Quad Task → List Slot → ICache → Filled
  | 0, _, _, _, cache => ⟨[], cache, none⟩
  | n + 1, q, ts, old, cache =>
    let t := slotTask q.slots q.slot
    let p := (ts.get t).pc
    let ts' := ts.set t (ts.get t).advance
    let fetched : Filled :=
      match s.fetch c cache p (0x5000 + n) with
      | none => ⟨[], cache, some p⟩
      | some w =>
        let r := s.fillQueue c n q.advance ts' old.tail w.icache
        { r with queue := ⟨w.word, t, p, false, w.rom⟩ :: r.queue }
    match old with
    | [] => fetched
    | e :: rest =>
      if e.cancelled then
        let r := s.fillQueue c n q.advance ts rest cache
        { r with queue := e :: r.queue }
      else if e.task = t ∧ e.addr = p then
        let r := s.fillQueue c n q.advance ts' rest cache
        { r with queue := e :: r.queue }
      else fetched

/-- The next three instructions of a cog, as far as its instruction cache holds them. -/
def State.filled (s : State) (c : Cog) : Filled := s.fillQueue c 3 c.sched c.tasks c.pipe.queue c.icache

/-- A cog with its queue filled as far as its instruction cache goes. -/
def State.prefetch (s : State) (c : Cog) : Cog :=
  let f := s.filled c
  { c with pipe := { c.pipe with queue := f.queue }, icache := f.icache }

/-! ### One clock -/

/-- The levels of INA and INB of a counter in this clock: of the pins it has selected, those of port D as the cog reads
them (R812, R813, R940). -/
def State.ctrIns (s : State) (c : Cog) (counter : Nat) (u : Ctr) : Bool × Bool :=
  (s.pinIn c (Config.ctrPins counter u.cfg).1, s.pinIn c (Config.ctrPins counter u.cfg).2)

/-- The free-running units of a running cog in one clock; `s` is the machine in that clock, before any unit has moved
(R76), so that an input is what a read of PINx gives in the clock (R781, R852). DESIGN CHOICE: VID reads AUX as it is before XFR
writes it in the clock (R146, R853, log 37). -/
def Cog.tickUnits (c : Cog) (s : State) (k : Fin 8) : Cog :=
  let draw (n : Nat) : Nat := 0x4000 + 64 * k.val + n
  let x := c.xfr.tick c.wide.regs c.aux c.ptry (s.pinLong c c.xfr.port)
  let a := c.ctra.tick s.clock k 0 (s.ctrIns c 0 c.ctra) (Config.freeIndex s.turn (draw 16))
  let b := c.ctrb.tick s.clock k 1 (s.ctrIns c 1 c.ctrb) (Config.freeIndex s.turn (draw 17))
  let v := c.vid.tick a.pll a.dots c.aux s.turn (draw 24)
  { c with
    wide := { c.wide with regs := x.wides }
    aux := x.aux
    ptry := x.ptr
    xfr := x.unit
    chain := { c.chain with left := c.chain.left - 1 }
    math := c.math.tick
    ctra := a
    ctrb := b
    vid := v
    dac := c.dac.tick (a.sigs s.clock k 0) (b.sigs s.clock k 1) v.sig
    sera := (c.sera.tickTx).tickRx (s.pinIn c c.sera.rxPin) s.turn (draw 0)
    serb := (c.serb.tickTx).tickRx (s.pinIn c c.serb.rxPin) s.turn (draw 8) }

/-- The registers of a cog whose loading ends: where the hub long of one was overwritten meanwhile, any value that it held
(D20, U37, log 44). `written` are the overwritten longs. -/
def Cog.settle (c : Cog) (s : State) : (written : List (Nat × Word)) → Cog
  | [] => c
  | e :: rest =>
    let d := c.settle s rest
    let i := (BitVec.ofNat 18 (4 * e.1) - c.ptrb).toNat / 4
    if i < 0x1F4 then
      let all := c.ram.read zeroes i :: s.hub.mem.long (4 * e.1) :: s.hub.heldSince c.icache.since e.1
      let v := (all[Config.freeIndex s.turn (0x7000 + i) % all.length]?).getD 0
      { d with ram := d.ram.write zeroes i v }
    else d

/-- One clock of a cog: its units, or the loader (R35, R296). -/
def Cog.tick (c : Cog) (s : State) (k : Fin 8) : Cog :=
  match c.run with
  | .running => c.tickUnits s k
  | .idle => c
  | .loading n =>
    if n ≤ 1 then { c.settle s (s.hub.hist.take (s.hub.hist.length - c.icache.since)) with run := .running }
    else { c with run := .loading (n - 1) }

/-- The port histories one clock later (R942): what a cog drove on port D is on its way whether or not the cog still
runs. -/
def Cog.shiftPorts (c : Cog) (s : State) (k : Fin 8) : Cog :=
  { c with ports := { c.ports with
      xch1 := c.ports.xch, xch2 := c.ports.xch1, xch3 := c.ports.xch2
      d1 := c.portOut s k 3, d2 := c.ports.d1, d3 := c.ports.d2 } }

/-- The next clock begins: CNT (R32), the hub cycle rotation (R35), and on the pins what was driven in the clock before.
-/
def State.nextClock (s : State) : State :=
  { s with
    hub := { s.hub with cnt := s.hub.cnt + 1, cntPrev := s.hub.cnt, rot := s.hub.rot + 1 }
    cogs := s.cogs.mapIdx fun k c => c.shiftPorts s k
    pads := s.pads.become (s.clock + 1) s.driven
    clock := s.clock + 1 }

/-- The clock moves on, and in it the units of every cog, before the instructions of the clock. DESIGN CHOICE: where a unit
and an instruction touch the same state in one clock, the source gives no order (R855, R953 (e)); here the unit acts first,
so that the instruction sees what the unit did and its own write wins: XFR and an instruction at one WIDE, SERINx in the
clock of a capture (log 59). -/
def State.tick (s : State) : State :=
  let t := s.nextClock
  { t with cogs := t.cogs.mapIdx fun k c => c.tick t k }

/-- The turn passes to the next cog; after cog 7 the clock moves on (log 6). DESIGN CHOICE: the instruction that a cog has in
the very clock in which another cog stops or restarts it, or resets the chip, has executed if the cog's number is the lower,
and does not execute if it is the higher (R954 is silent, log 6). -/
def State.nextTurn (s : State) : State :=
  let t := { s with turn := s.turn + 1, cur := s.cur + 1 }
  if s.cur = 7 then t.tick else t

end Sys2Proof.Machine
end

