-- ==== Sys2Proof/Machine/Flags.lean ====
section
/-!
DEFINITION. Conditions and flag computations (R55, R173, R174, R551 to R555).
-/

set_option Elab.async false

namespace Sys2Proof.Machine

open Sys2Proof

/-- Does a condition hold for a task's flags: bit 2*C + Z of CCCC (R174). -/
def condHolds (cond : BitVec 4) (z c : Bool) : Bool := cond.getLsbD (2 * c.toNat + z.toNat)

/-- The default Z: the 32-bit result is zero (R173). -/
def zOf (r : Word) : Bool := r == 0

/-- Unsigned carry of a sum with carry in (R589, R591). -/
def carryAdd (d s : Word) (cin : Bool) : Bool := decide (2 ^ 32 ≤ d.toNat + s.toNat + cin.toNat)

/-- Unsigned borrow of a difference with borrow in (R590, R592). -/
def borrowSub (d s : Word) (cin : Bool) : Bool := decide (d.toNat < s.toNat + cin.toNat)

/-- The number of ones among the low `n` bits. -/
def onesBelow (v : Word) : Nat → Nat
  | 0 => 0
  | n + 1 => (v.getLsbD n).toNat + onesBelow v n

/-- The number of ones of a word. -/
def ones (v : Word) : Nat := onesBelow v 32

/-- Odd parity. -/
def parity (v : Word) : Bool := ones v % 2 == 1

end Sys2Proof.Machine
end

