-- ==== Sys2Proof/Machine/Operands.lean ====
section
/-!
DEFINITION. Operand decode (30_encoding.md R175 to R184): indirection, register remapping, immediates with their AUGS and
AUGD extension, relative addresses, the condition, and the shapes in which meanings use all of it.
-/

set_option Elab.async false

namespace Sys2Proof.Machine

open Sys2Proof

/-! ### INDA and INDB (R179 to R182, R330) -/

def IndReg.inc (r : IndReg) : RegAddr := if r.ptr = r.top then r.bot else r.ptr + 1
def IndReg.dec (r : IndReg) : RegAddr := if r.ptr = r.bot then r.top else r.ptr - 1

/-- The address an indirect operand names (R180). -/
def IndReg.addr (r : IndReg) (m : BitVec 2) : RegAddr := if m = 3 then r.inc else r.ptr

/-- The pointer after the instruction (R180). -/
def IndReg.step (r : IndReg) (m : BitVec 2) : IndReg :=
  if m = 0 then r else if m = 2 then { r with ptr := r.dec } else { r with ptr := r.inc }

/-! ### Register remapping (R178) -/

/-- The low bits of the block selector: INDB's pointer or the task number. -/
def Cog.blockSelector (c : Cog) : Nat := if c.remap.eff.getLsbD 6 then c.cur.val else c.indb.ptr.toNat

/-- The register address a direct field names under the mapping in effect. -/
def Cog.remapField (c : Cog) (f : RegAddr) : RegAddr :=
  let bbb := (bits c.remap.eff 3 3).toNat
  let rrr := (bits c.remap.eff 0 3).toNat
  if bbb = 0 then f
  else if f.toNat < 2 ^ rrr then
    (if 9 < bbb + rrr then Config.remapOpen c.remap.eff c.blockSelector f
     else BitVec.ofNat 9 (c.blockSelector % 2 ^ bbb * 2 ^ rrr + f.toNat))
  else f

/-! ### Operand uses (R175) -/

/-- What an instruction does with its D field. -/
inductive DUse where
  /-- A register operand. -/
  | reg (f : RegAddr)
  /-- A nine-bit constant, extended by AUGD. -/
  | imm (f : RegAddr)
  /-- Neither: the bare field, or no D at all. -/
  | raw (f : RegAddr)
deriving DecidableEq, Repr

/-- What an instruction does with its S field. -/
inductive SUse where
  | reg (f : RegAddr)
  | imm (f : RegAddr)
  /-- A relative instruction address (R184). -/
  | rel (f : RegAddr)
  | raw (f : RegAddr)
deriving DecidableEq, Repr

/-- D as register or immediate, by the L bit. -/
def dl (l : Bool) (f : RegAddr) : DUse := if l then .imm f else .reg f
/-- S as register or immediate, by the I bit. -/
def si (i : Bool) (f : RegAddr) : SUse := if i then .imm f else .reg f
/-- S as register or relative address, by the I bit. -/
def sr (i : Bool) (f : RegAddr) : SUse := if i then .rel f else .reg f

/-- Does D name an indirect register: `w` is $1F2 for INDA, $1F3 for INDB? -/
def DUse.names (u : DUse) (w : RegAddr) : Bool := match u with | .reg f => f == w | _ => false
def SUse.names (u : SUse) (w : RegAddr) : Bool := match u with | .reg f => f == w | _ => false

/-- Does the instruction have an indirect operand, which forces it to execute (R182)? -/
def forced (du : DUse) (su : SUse) : Bool :=
  du.names 0x1F2#9 || du.names 0x1F3#9 || su.names 0x1F2#9 || su.names 0x1F3#9

/-- The resolved address of a direct or indirect register field, with its two modifier bits. -/
def Cog.resolve (c : Cog) (f : RegAddr) (m : BitVec 2) : RegAddr :=
  if f = 0x1F2#9 then c.inda.addr m else if f = 0x1F3#9 then c.indb.addr m else c.remapField f

/-- The resolved D address; the field itself where D is no register. -/
def Cog.dAddr (c : Cog) (cond : BitVec 4) : DUse → RegAddr
  | .reg f => c.resolve f (bits cond 2 2)
  | .imm f => f
  | .raw f => f

/-- The resolved S address; the field itself where S is no register. -/
def Cog.sAddr (c : Cog) (cond : BitVec 4) : SUse → RegAddr
  | .reg f => c.resolve f (bits cond 0 2)
  | .imm f => f
  | .rel f => f
  | .raw f => f

/-- The modifier of INDA (`w` = $1F2) or INDB ($1F3): the two fields ORed where both operands use it (R181). -/
def indModifier (cond : BitVec 4) (du : DUse) (su : SUse) (w : RegAddr) : BitVec 2 :=
  (if du.names w then bits cond 2 2 else 0) ||| (if su.names w then bits cond 0 2 else 0)

/-- The cog after operand decode: INDA and INDB stepped, the AUG latches used emptied (R176, R177, D19), the outcome of
the condition test for the trace (R976). -/
def Cog.decoded (c : Cog) (cond : BitVec 4) (du : DUse) (su : SUse) : Cog :=
  let k := c.task
  let augs := match su with | .imm _ => none | .rel _ => none | _ => k.augs
  let augd := match du with | .imm _ => none | _ => k.augd
  { c with
    inda := c.inda.step (indModifier cond du su 0x1F2#9)
    indb := c.indb.step (indModifier cond du su 0x1F3#9)
    tasks := c.tasks.set c.cur { k with augs := augs, augd := augd }
    stage4 := { c.stage4 with cond := forced du su || condHolds cond k.z k.c } }

/-- A nine-bit constant, extended by a pending 23-bit value (R177). -/
def extend (aug : Option (BitVec 23)) (f : RegAddr) : Word :=
  match aug with
  | some a => a ++ f
  | none => f.setWidth 32

/-- The target of a relative address: the instruction's own address plus the signed nine bits, or plus the low 16 bits
of the extended constant (R184, D5). -/
def relTarget (pc : Addr) (aug : Option (BitVec 23)) (f : RegAddr) : Addr :=
  match aug with
  | some a => pc + bits (a ++ f : Word) 0 16
  | none => pc + f.signExtend 16

/-- The operands of an instruction (R183), read before it writes anything. Under a relative address the low half of the S
value is the target; the upper half is the constant's own, which JMPSW takes flags from (R482). -/
def State.operands (s : State) (cond : BitVec 4) (du : DUse) (su : SUse) : Operands :=
  let c := s.cog
  let k := c.task
  { d := c.dAddr cond du
    dv := match du with
      | .reg _ => s.readReg c (c.dAddr cond du)
      | .imm f => extend k.augd f
      | .raw f => f.setWidth 32
    sv := match su with
      | .reg _ => s.readReg c (c.sAddr cond su)
      | .imm f => extend k.augs f
      | .rel f => bits (extend k.augs f) 16 16 ++ relTarget k.pc k.augs f
      | .raw f => f.setWidth 32 }

/-- The shape of every conditional instruction (R174, R176): decode the operands, then execute if the condition holds or
an operand is indirect, else pass on to the next instruction. An instruction that has been waiting in stage 4 goes on
with the operands it has. -/
def State.withOperands (s : State) (cond : BitVec 4) (du : DUse) (su : SUse) (body : Operands → State → Out) : Out :=
  match s.cog.pipe.waiting with
  | some w => body w.ops s
  | none =>
    let s1 := s.setCog (s.cog.decoded cond du su)
    if forced du su || condHolds cond s.task.z s.task.c then body (s.operands cond du su) s1 else s1.finish s1.cog

/-- A conditional instruction without operands (SINGLE0, BIG16). -/
def State.conditional (s : State) (cond : BitVec 4) (body : Operands → State → Out) : Out :=
  s.withOperands cond (.raw 0) (.raw 0) body

/-- An instruction whose constant S is no plain immediate meets a pending AUGS: the spec says refuse (U31). The meanings
ask when the condition holds; DESIGN CHOICE: if it fails, the instruction passes on and the latch stays pending (log
23). -/
def State.noAugs (s : State) (constant : Bool) (go : Out) : Out :=
  if constant && s.task.augs.isSome then .refused .augPending else go

/-- The same for D and AUGD (U31, log 23). -/
def State.noAugd (s : State) (constant : Bool) (go : Out) : Out :=
  if constant && s.task.augd.isSome then .refused .augPending else go

/-! ### Shapes of meanings -/

/-- A D result with its flags. -/
structure Result where
  r : Word
  z : Bool
  c : Bool

/-- A result with the default Z (R173). -/
def Result.of (r : Word) (c : Bool) : Result := ⟨r, zOf r, c⟩

/-- What an ALU function is given: the operands and flags, and fresh free values for the bits its rule leaves
unspecified (U23, U25, U26). -/
structure AluIn where
  d : Word
  s : Word
  z : Bool
  c : Bool
  freeR : Word
  freeZ : Bool
  freeC : Bool

/-- Operands and flags of the task, as an ALU function takes them. -/
def State.aluIn (s : State) (o : Operands) : AluIn :=
  ⟨o.dv, o.sv, s.task.z, s.task.c, Config.freeWord s.turn 1, Config.freeBit s.turn 1, Config.freeBit s.turn 2⟩

/-- Write a result to D and its flags where asked. -/
def State.putResult (s : State) (o : Operands) (wz wc : Bool) (a : Result) (stall : Nat := 0) : Out :=
  s.finishD (s.cog.setFlags wz wc a.z a.c) o.d a.r stall

/-- Write the flags only (class R). -/
def State.putFlags (s : State) (wz wc : Bool) (z c : Bool) : Out := s.finish (s.cog.setFlags wz wc z c)

/-- DUAL, classes ZCWS and ZCMS: D <- alu. -/
def State.dualOp (s : State) (f : Dual) (alu : AluIn → Result) (stall : Nat := 0) : Out :=
  s.withOperands f.cond (.reg f.d) (si f.i f.s) fun o s1 => s1.putResult o f.wz f.wc (alu (s1.aluIn o)) stall

/-- DUAL, class ZCRS: flags only. -/
def State.dualTest (s : State) (f : Dual) (alu : AluIn → Result) : Out :=
  s.withOperands f.cond (.reg f.d) (si f.i f.s) fun o s1 =>
    let a := alu (s1.aluIn o)
    s1.putFlags f.wz f.wc a.z a.c

/-- DUAL-Zs. -/
def State.dualZOp (s : State) (f : DualZ) (alu : AluIn → Result) (stall : Nat := 0) : Out :=
  s.withOperands f.cond (.reg f.d) (si f.i f.s) fun o s1 => s1.putResult o f.wz false (alu (s1.aluIn o)) stall

/-- DUAL-sC. -/
def State.dualCOp (s : State) (f : DualC) (alu : AluIn → Result) : Out :=
  s.withOperands f.cond (.reg f.d) (si f.i f.s) fun o s1 => s1.putResult o false f.wc (alu (s1.aluIn o))

/-- DUAL-ss with a D result and no flags. -/
def State.dualPOp (s : State) (f : DualP) (alu : AluIn → Word) (stall : Nat := 0) : Out :=
  s.withOperands f.cond (.reg f.d) (si f.i f.s) fun o s1 => s1.finishD s1.cog o.d (alu (s1.aluIn o)) stall

/-- SINGLE, classes ZCW- and ZCM-: D <- alu. -/
def State.singleOp (s : State) (f : SingleZC) (alu : AluIn → Result) (stall : Nat := 0) : Out :=
  s.withOperands f.cond (.reg f.d) (.raw 0) fun o s1 => s1.putResult o f.wz f.wc (alu (s1.aluIn o)) stall

/-- SINGLE, class --L-: the cog changes by a function of the D value. -/
def State.configL (s : State) (f : SingleL) (g : Word → Cog → Cog) : Out :=
  s.withOperands f.cond (dl f.l f.d) (.raw 0) fun o s1 => s1.finish (g o.dv s1.cog)

/-- DUAL-sL: the cog changes by a function of the D and S values. -/
def State.configLS (s : State) (f : DualL) (g : Word → Word → Cog → Cog) : Out :=
  s.withOperands f.cond (dl f.l f.d) (si f.i f.s) fun o s1 => s1.finish (g o.dv o.sv s1.cog)

/-- SINGLE0 without flags: the cog changes. -/
def State.config0 (s : State) (f : Zero0) (g : Cog → Cog) : Out :=
  s.conditional f.cond fun _ s1 => s1.finish (g s1.cog)

/-- SINGLE, class ZCW-: read a value of the machine into D, Z by the default, C open where the spec names none (U34). -/
def State.readInto (s : State) (f : SingleZC) (value : State → Word) (after : Cog → Cog) : Out :=
  s.withOperands f.cond (.reg f.d) (.raw 0) fun o s1 =>
    let r := value s1
    s1.finishD ((after s1.cog).setFlags f.wz f.wc (zOf r) (Config.freeBit s1.turn 2)) o.d r

end Sys2Proof.Machine
end

