-- ==== Sys2Proof/Machine/Alu.lean ====
section
/-!
DEFINITION. Arithmetic, logic, bit and field instructions (45_alu.md). Result formulas and C values that R551 marks as
taken from general knowledge are as the rules give them (log 13). Where the spec gives no C, or no result, the value is
an open function of the inputs (log 14, log 15); its first argument is the instruction's opcode bits.
-/

set_option Elab.async false

namespace Sys2Proof.Machine

open Sys2Proof

/-! ### Parts -/

/-- S[4:0] (R552). -/
def AluIn.b (a : AluIn) : Nat := (bits a.s 0 5).toNat

/-- The bit S selects. -/
def AluIn.bit (a : AluIn) : Word := 1#32 <<< a.b

/-- ALU_C (R551). -/
def AluIn.openC (a : AluIn) (op : Nat) : Bool := Config.aluC op a.d a.s a.c a.z

/-- ALU_RESULT (R551). -/
def AluIn.openR (a : AluIn) (op : Nat) : Word := Config.aluResult op a.d a.s a.c a.z

/-- A result with the default Z and an open C. -/
def AluIn.withOpenC (a : AluIn) (op : Nat) (r : Word) : Result := Result.of r (a.openC op)

/-- A result with the default Z and odd parity in C. -/
def Result.par (r : Word) : Result := Result.of r (parity r)

/-- Z of the six extended instructions: old Z and zero result where both are known to agree (R554, U23). -/
def AluIn.extZ (a : AluIn) (r : Word) : Bool := if zOf r then a.z || a.freeZ else false

/-- C of a shift: the end bit of D for a count of 0 or 1, else open (R555, U26). -/
def AluIn.shiftC (a : AluIn) (endBit : Bool) : Bool := if a.b ≤ 1 then endBit else a.freeC

/-- D with the selected bit at a level. -/
def AluIn.putBit (a : AluIn) (level : Bool) : Word := (a.d &&& ~~~a.bit) ||| (if level then a.bit else 0)

/-- D with the bits S selects at a level. -/
def AluIn.mux (a : AluIn) (level : Bool) : Word := (a.d &&& ~~~a.s) ||| (if level then a.s else 0)

def absOf (v : Word) : Word := if v.msb then 0 - v else v

/-- A word with a field of `n` bits at `lo` replaced by the low bits of `x`. -/
def setField (v : Word) (lo n : Nat) (x : Word) : Word :=
  let m : Word := BitVec.ofNat 32 (2 ^ n - 1)
  (v &&& ~~~(m <<< lo)) ||| ((x &&& m) <<< lo)

/-- A field of `n` bits at `lo`, at the bottom of a word. -/
def getField (v : Word) (lo n : Nat) : Word := (v >>> lo) &&& BitVec.ofNat 32 (2 ^ n - 1)

/-- The low `n` bits of `r` under open upper bits (U25). -/
def AluIn.lowOnly (a : AluIn) (n : Nat) (r : Word) : Word := setField a.freeR 0 n r

/-- The signed 20-bit operands of MUL and SCL (R611). -/
def AluIn.short (a : AluIn) : AluIn :=
  { a with d := (bits a.d 0 20).signExtend 32, s := (bits a.s 0 20).signExtend 32 }

def countWord (n : Nat) : Word := BitVec.ofNat 32 n

/-- The value whose Gray code is D: each bit is the parity of the bits of D from it upward (R657). -/
def grayToBinary (d : Word) : Word :=
  let r := d ^^^ (d >>> 1)
  let r := r ^^^ (r >>> 2)
  let r := r ^^^ (r >>> 4)
  let r := r ^^^ (r >>> 8)
  r ^^^ (r >>> 16)

/-- Result byte `i` of MOVBYTS: the byte of D that selector pair `i` of S names (R642). -/
def movedByte (d s : Word) (i : Nat) : Byte := bits d (8 * (bits s (2 * i) 2).toNat) 8

/-- Five-bit colours from the top of three bytes (R643). -/
def packColours (s : Word) : BitVec 15 := bits s 19 5 ++ (bits s 11 5 ++ bits s 3 5)

/-- Three bytes from five-bit colours; the low three bits of each are open (R644, U25). -/
def AluIn.unpackColours (a : AluIn) : Word :=
  0#8 ++ (bits a.s 10 5 ++ (bits a.freeR 16 3 ++ (bits a.s 5 5 ++ (bits a.freeR 8 3 ++ (bits a.s 0 5 ++ bits a.freeR 0 3)))))

/-! ### Bits (R557 to R564) -/

def execIsob (f : Dual) (s : State) : Out := s.dualOp f (fun a => a.withOpenC 0x08 (a.d &&& a.bit))
def execNotb (f : Dual) (s : State) : Out := s.dualOp f (fun a => a.withOpenC 0x09 (a.d ^^^ a.bit))
def execClrb (f : Dual) (s : State) : Out := s.dualOp f (fun a => a.withOpenC 0x0A (a.d &&& ~~~a.bit))
def execSetb (f : Dual) (s : State) : Out := s.dualOp f (fun a => a.withOpenC 0x0B (a.d ||| a.bit))
def execSetbc (f : Dual) (s : State) : Out := s.dualOp f (fun a => a.withOpenC 0x0C (a.putBit a.c))
def execSetbnc (f : Dual) (s : State) : Out := s.dualOp f (fun a => a.withOpenC 0x0D (a.putBit (!a.c)))
def execSetbz (f : Dual) (s : State) : Out := s.dualOp f (fun a => a.withOpenC 0x0E (a.putBit a.z))
def execSetbnz (f : Dual) (s : State) : Out := s.dualOp f (fun a => a.withOpenC 0x0F (a.putBit (!a.z)))

/-! ### Logic (R565 to R572) -/

def execAndn (f : Dual) (s : State) : Out := s.dualOp f (fun a => .par (a.d &&& ~~~a.s))
def execAnd (f : Dual) (s : State) : Out := s.dualOp f (fun a => .par (a.d &&& a.s))
def execOr (f : Dual) (s : State) : Out := s.dualOp f (fun a => .par (a.d ||| a.s))
def execXor (f : Dual) (s : State) : Out := s.dualOp f (fun a => .par (a.d ^^^ a.s))
def execMuxc (f : Dual) (s : State) : Out := s.dualOp f (fun a => .par (a.mux a.c))
def execMuxnc (f : Dual) (s : State) : Out := s.dualOp f (fun a => .par (a.mux (!a.c)))
def execMuxz (f : Dual) (s : State) : Out := s.dualOp f (fun a => .par (a.mux a.z))
def execMuxnz (f : Dual) (s : State) : Out := s.dualOp f (fun a => .par (a.mux (!a.z)))

/-! ### Shifts (R573 to R580) -/

def execRor (f : Dual) (s : State) : Out := s.dualOp f (fun a => .of (a.d.rotateRight a.b) (a.shiftC (a.d.getLsbD 0)))
def execRol (f : Dual) (s : State) : Out := s.dualOp f (fun a => .of (a.d.rotateLeft a.b) (a.shiftC a.d.msb))
def execShr (f : Dual) (s : State) : Out := s.dualOp f (fun a => .of (a.d >>> a.b) (a.shiftC (a.d.getLsbD 0)))
def execShl (f : Dual) (s : State) : Out := s.dualOp f (fun a => .of (a.d <<< a.b) (a.shiftC a.d.msb))
def execRcr (f : Dual) (s : State) : Out :=
  s.dualOp f (fun a => .of ((a.d >>> a.b) ||| (if a.c then ~~~((-1#32) >>> a.b) else 0)) (a.shiftC (a.d.getLsbD 0)))
def execRcl (f : Dual) (s : State) : Out :=
  s.dualOp f (fun a => .of ((a.d <<< a.b) ||| (if a.c then ~~~((-1#32) <<< a.b) else 0)) (a.shiftC a.d.msb))
def execSar (f : Dual) (s : State) : Out := s.dualOp f (fun a => .of (a.d.sshiftRight a.b) (a.shiftC (a.d.getLsbD 0)))
def execRev (f : Dual) (s : State) : Out := s.dualOp f (fun a => .of (a.d.reverse >>> a.b) (a.shiftC (a.d.getLsbD 0)))

/-! ### Moves (R581 to R588) -/

def execMov (f : Dual) (s : State) : Out := s.dualOp f (fun a => .of a.s a.s.msb)
def execNot (f : Dual) (s : State) : Out := s.dualOp f (fun a => a.withOpenC 0x21 (~~~a.s))
def execAbs (f : Dual) (s : State) : Out := s.dualOp f (fun a => .of (absOf a.s) a.s.msb)
def execNeg (f : Dual) (s : State) : Out := s.dualOp f (fun a => a.withOpenC 0x23 (0 - a.s))
def execNegc (f : Dual) (s : State) : Out := s.dualOp f (fun a => a.withOpenC 0x24 (if a.c then 0 - a.s else a.s))
def execNegnc (f : Dual) (s : State) : Out := s.dualOp f (fun a => a.withOpenC 0x25 (if a.c then a.s else 0 - a.s))
def execNegz (f : Dual) (s : State) : Out := s.dualOp f (fun a => a.withOpenC 0x26 (if a.z then 0 - a.s else a.s))
def execNegnz (f : Dual) (s : State) : Out := s.dualOp f (fun a => a.withOpenC 0x27 (if a.z then a.s else 0 - a.s))

/-! ### Sums (R589 to R612) -/

/-- D + S + C and D - S - C as words. -/
def AluIn.sumX (a : AluIn) : Word := a.d + a.s + (BitVec.ofBool a.c).setWidth 32
def AluIn.diffX (a : AluIn) : Word := a.d - a.s - (BitVec.ofBool a.c).setWidth 32

/-- A result with the extended Z. -/
def AluIn.ext (a : AluIn) (r : Word) (c : Bool) : Result := ⟨r, a.extZ r, c⟩

def execAdd (f : Dual) (s : State) : Out := s.dualOp f (fun a => .of (a.d + a.s) (carryAdd a.d a.s false))
def execSub (f : Dual) (s : State) : Out := s.dualOp f (fun a => .of (a.d - a.s) (borrowSub a.d a.s false))
def execAddx (f : Dual) (s : State) : Out := s.dualOp f (fun a => a.ext a.sumX (carryAdd a.d a.s a.c))
def execSubx (f : Dual) (s : State) : Out := s.dualOp f (fun a => a.ext a.diffX (borrowSub a.d a.s a.c))
def execAdds (f : Dual) (s : State) : Out := s.dualOp f (fun a => a.withOpenC 0x2C (a.d + a.s))
def execSubs (f : Dual) (s : State) : Out := s.dualOp f (fun a => a.withOpenC 0x2D (a.d - a.s))
def execAddsx (f : Dual) (s : State) : Out := s.dualOp f (fun a => a.ext a.sumX (a.openC 0x2E))
def execSubsx (f : Dual) (s : State) : Out := s.dualOp f (fun a => a.ext a.diffX (a.openC 0x2F))
def execSumc (f : Dual) (s : State) : Out :=
  s.dualOp f (fun a => a.withOpenC 0x30 (if a.c then a.d - a.s else a.d + a.s))
def execSumnc (f : Dual) (s : State) : Out :=
  s.dualOp f (fun a => a.withOpenC 0x31 (if a.c then a.d + a.s else a.d - a.s))
def execSumz (f : Dual) (s : State) : Out :=
  s.dualOp f (fun a => a.withOpenC 0x32 (if a.z then a.d - a.s else a.d + a.s))
def execSumnz (f : Dual) (s : State) : Out :=
  s.dualOp f (fun a => a.withOpenC 0x33 (if a.z then a.d + a.s else a.d - a.s))

/-! The Z of the four limits is open (U23). -/

def execMin (f : Dual) (s : State) : Out :=
  s.dualOp f (fun a => ⟨if a.d.ult a.s then a.s else a.d, a.freeZ, a.d.ult a.s⟩)
def execMax (f : Dual) (s : State) : Out :=
  s.dualOp f (fun a => ⟨if a.s.ult a.d then a.s else a.d, a.freeZ, a.openC 0x35⟩)
def execMins (f : Dual) (s : State) : Out :=
  s.dualOp f (fun a => ⟨if a.d.slt a.s then a.s else a.d, a.freeZ, a.d.slt a.s⟩)
def execMaxs (f : Dual) (s : State) : Out :=
  s.dualOp f (fun a => ⟨if a.s.slt a.d then a.s else a.d, a.freeZ, a.openC 0x37⟩)
def execAddabs (f : Dual) (s : State) : Out := s.dualOp f (fun a => a.withOpenC 0x38 (a.d + absOf a.s))
def execSubabs (f : Dual) (s : State) : Out := s.dualOp f (fun a => a.withOpenC 0x39 (a.d - absOf a.s))
def execIncmod (f : Dual) (s : State) : Out :=
  s.dualOp f (fun a => if a.d = a.s then .of 0 true else .of (a.d + 1) false)
def execDecmod (f : Dual) (s : State) : Out :=
  s.dualOp f (fun a => if a.d = 0 then .of a.s true else .of (a.d - 1) false)

/-- CMPSUB; Z is open when D is 0 and below S (R609, U23). -/
def execCmpsub (f : Dual) (s : State) : Out :=
  s.dualOp f fun a =>
    if a.d.ult a.s then ⟨a.d, if zOf a.d then a.freeZ else false, false⟩ else .of (a.d - a.s) true

def execSubr (f : Dual) (s : State) : Out := s.dualOp f (fun a => .of (a.s - a.d) (borrowSub a.s a.d false))

/-! MUL and SCL see 20 bits of each operand and take two clocks. -/

def execMul (f : Dual) (s : State) : Out := s.dualOp f (fun a => .of (a.short.openR 0x3E) (a.openC 0x3E)) 1
def execScl (f : Dual) (s : State) : Out := s.dualOp f (fun a => .of (a.short.openR 0x3F) (a.openC 0x3F)) 1

/-! ### Decode, encode, count, patterns, split and merge (R613 to R626) -/

def execDecod2 (f : Dual) (s : State) : Out :=
  s.dualOp f (fun a => a.withOpenC 0x40 (a.lowOnly 4 (1#32 <<< (bits a.s 0 2).toNat)))
def execDecod3 (f : Dual) (s : State) : Out :=
  s.dualOp f (fun a => a.withOpenC 0x41 (a.lowOnly 8 (1#32 <<< (bits a.s 0 3).toNat)))
def execDecod4 (f : Dual) (s : State) : Out :=
  s.dualOp f (fun a => a.withOpenC 0x42 (a.lowOnly 16 (1#32 <<< (bits a.s 0 4).toNat)))
def execDecod5 (f : Dual) (s : State) : Out := s.dualOp f (fun a => a.withOpenC 0x43 (a.bit))
def execEncod (f : DualZ) (s : State) : Out := s.dualZOp f (fun a => .of (a.openR 0x110) false)
def execBlmask (f : DualZ) (s : State) : Out := s.dualZOp f (fun a => .of (a.openR 0x111) false)
def execOnecnt (f : DualZ) (s : State) : Out := s.dualZOp f (fun a => .of (countWord (ones a.s)) false) 1
def execZercnt (f : DualZ) (s : State) : Out := s.dualZOp f (fun a => .of (countWord (32 - ones a.s)) false) 1
def execIncpat (f : DualC) (s : State) : Out := s.dualCOp f (fun a => .of (a.openR 0x118) (a.openC 0x118))
def execDecpat (f : DualC) (s : State) : Out := s.dualCOp f (fun a => .of (a.openR 0x11A) (a.openC 0x11A))
def execSplitb (f : DualP) (s : State) : Out := s.dualPOp f (fun a => a.openR 0x11C)
def execMergeb (f : DualP) (s : State) : Out := s.dualPOp f (fun a => a.openR 0x11D)
def execSplitw (f : DualP) (s : State) : Out := s.dualPOp f (fun a => a.openR 0x11E)
def execMergew (f : DualP) (s : State) : Out := s.dualPOp f (fun a => a.openR 0x11F)
/-- The second name of SPLITB (R623). -/
def execMergen (f : DualP) (s : State) : Out := s.dualPOp f (fun a => a.openR 0x11C)
/-- The second name of MERGEB (R624). -/
def execSplitn (f : DualP) (s : State) : Out := s.dualPOp f (fun a => a.openR 0x11D)

/-! ### Fields (R627 to R644); `n` counts from the low end -/

def execGetnib (n : BitVec 3) (f : DualP) (s : State) : Out :=
  s.dualPOp f fun a => a.lowOnly 4 (getField a.s (4 * n.toNat) 4)
def execSetnib (n : BitVec 3) (f : DualP) (s : State) : Out :=
  s.dualPOp f fun a => setField a.d (4 * n.toNat) 4 a.s
def execGetword (n : BitVec 1) (f : DualP) (s : State) : Out :=
  s.dualPOp f fun a => a.lowOnly 16 (getField a.s (16 * n.toNat) 16)
def execSetword (n : BitVec 1) (f : DualP) (s : State) : Out :=
  s.dualPOp f fun a => setField a.d (16 * n.toNat) 16 a.s
def execGetbyte (n : BitVec 2) (f : DualP) (s : State) : Out :=
  s.dualPOp f fun a => a.lowOnly 8 (getField a.s (8 * n.toNat) 8)
def execSetbyte (n : BitVec 2) (f : DualP) (s : State) : Out :=
  s.dualPOp f fun a => setField a.d (8 * n.toNat) 8 a.s
def execSetwrds (f : DualP) (s : State) : Out := s.dualPOp f (fun a => bits a.s 0 16 ++ bits a.s 0 16)
def execRolnib (f : DualP) (s : State) : Out := s.dualPOp f (fun a => bits a.d 0 28 ++ bits a.s 0 4)
def execRolbyte (f : DualP) (s : State) : Out := s.dualPOp f (fun a => bits a.d 0 24 ++ bits a.s 0 8)
def execRolword (f : DualP) (s : State) : Out := s.dualPOp f (fun a => bits a.d 0 16 ++ bits a.s 0 16)
def execSets (f : DualP) (s : State) : Out := s.dualPOp f (fun a => setField a.d 0 9 a.s)
def execSetd (f : DualP) (s : State) : Out := s.dualPOp f (fun a => setField a.d 9 9 a.s)
def execSetx (f : DualP) (s : State) : Out := s.dualPOp f (fun a => a.openR 0x13A)
def execSeti (f : DualP) (s : State) : Out := s.dualPOp f (fun a => setField a.d 23 9 a.s)
def execSetbyts (f : DualP) (s : State) : Out :=
  s.dualPOp f (fun a => bits a.s 0 8 ++ (bits a.s 0 8 ++ (bits a.s 0 8 ++ bits a.s 0 8)))
def execMovbyts (f : DualP) (s : State) : Out :=
  s.dualPOp f (fun a => movedByte a.d a.s 3 ++ (movedByte a.d a.s 2 ++ (movedByte a.d a.s 1 ++ movedByte a.d a.s 0)))
def execPackrgb (f : DualP) (s : State) : Out := s.dualPOp f (fun a => 0#1 ++ (packColours a.s ++ bits a.d 16 16))
def execUnpkrgb (f : DualP) (s : State) : Out := s.dualPOp f (fun a => a.unpackColours)

/-! ### Tests and compares (R645 to R652): no register is written -/

def execTestb (f : Dual) (s : State) : Out := s.dualTest f (fun a => a.withOpenC 0x58 (a.d &&& a.bit))
def execTestn (f : Dual) (s : State) : Out := s.dualTest f (fun a => .par (a.d &&& ~~~a.s))
def execTest (f : Dual) (s : State) : Out := s.dualTest f (fun a => .par (a.d &&& a.s))
def execCmp (f : Dual) (s : State) : Out := s.dualTest f (fun a => .of (a.d - a.s) (borrowSub a.d a.s false))
def execCmpx (f : Dual) (s : State) : Out := s.dualTest f (fun a => a.ext a.diffX (borrowSub a.d a.s a.c))
def execCmps (f : Dual) (s : State) : Out := s.dualTest f (fun a => .of (a.d - a.s) (a.d.slt a.s))
def execCmpsx (f : Dual) (s : State) : Out := s.dualTest f (fun a => a.ext a.diffX (a.openC 0x5E))
def execCmpr (f : Dual) (s : State) : Out := s.dualTest f (fun a => .of (a.s - a.d) (borrowSub a.s a.d false))

/-! ### One operand (R653 to R665) -/

/-- GETLFSR: an unknown value each time, Z from it, and C the open function of the operands that C of an unlisted rule is
(R653, log 14, log 32). -/
def execGetlfsr (f : SingleZC) (s : State) : Out := s.singleOp f (fun a => .of a.freeR (a.openC 0x403))
def execBinbcd (f : SingleZC) (s : State) : Out := s.singleOp f (fun a => a.withOpenC 0x424 (a.openR 0x424))
def execBcdbin (f : SingleZC) (s : State) : Out := s.singleOp f (fun a => a.withOpenC 0x425 (a.openR 0x425))
def execBingry (f : SingleZC) (s : State) : Out := s.singleOp f (fun a => a.withOpenC 0x426 (a.d ^^^ (a.d >>> 1)))
def execGrybin (f : SingleZC) (s : State) : Out := s.singleOp f (fun a => a.withOpenC 0x427 (grayToBinary a.d)) 1
def execEswap4 (f : SingleZC) (s : State) : Out := s.singleOp f (fun a => a.withOpenC 0x428 (a.openR 0x428))
def execEswap8 (f : SingleZC) (s : State) : Out := s.singleOp f (fun a => a.withOpenC 0x429 (a.openR 0x429))
def execSeussf (f : SingleZC) (s : State) : Out := s.singleOp f (fun a => a.withOpenC 0x42A (a.openR 0x42A))
def execSeussr (f : SingleZC) (s : State) : Out := s.singleOp f (fun a => a.withOpenC 0x42B (a.openR 0x42B))
def execIncd (f : SingleZC) (s : State) : Out := s.singleOp f (fun a => .of (a.d + 0x200) a.freeC)
def execDecd (f : SingleZC) (s : State) : Out := s.singleOp f (fun a => .of (a.d - 0x200) a.freeC)
def execIncds (f : SingleZC) (s : State) : Out := s.singleOp f (fun a => .of (a.d + 0x201) a.freeC)
def execDecds (f : SingleZC) (s : State) : Out := s.singleOp f (fun a => .of (a.d - 0x201) a.freeC)

end Sys2Proof.Machine
end

