-- ==== Sys2Proof/Machine/HubMem.lean ====
section
/-!
DEFINITION. Hub memory instructions, PTRA and PTRB, the WIDE registers (40_hub_memory.md).
-/

set_option Elab.async false

namespace Sys2Proof.Machine

open Sys2Proof

/-! ### Addresses (R231, R240 to R243) -/

/-- A hub address and the cog after the pointer update that belongs to it. -/
structure HubUse where
  addr : HubAddr
  cog : Cog

/-- The pointer expression S U P NNNNNN (R241). -/
def Cog.pointer (c : Cog) (f : RegAddr) (scale : Nat) : HubUse :=
  let useB := f.getLsbD 8
  let ptr := if useB then c.ptrb else c.ptra
  let moved := ptr + (bits f 0 6).signExtend 18 * BitVec.ofNat 18 scale
  let next := if f.getLsbD 7 then moved else ptr
  { addr := if f.getLsbD 6 then ptr else moved
    cog := if useB then { c with ptrb := next } else { c with ptra := next } }

/-- A pointer expression, or the low 18 bits of a register (R231). -/
def Cog.hubUse (c : Cog) (expr : Bool) (v : Word) (scale : Nat) : HubUse :=
  if expr then c.pointer (bits v 0 9) scale else ⟨bits v 0 18, c⟩

/-- The S operand of a hub instruction: a register, or the bare pointer expression. -/
def hubS (i : Bool) (f : RegAddr) : SUse := if i then .raw f else .reg f

/-- The D operand of a wide instruction, the same way. -/
def hubD (l : Bool) (f : RegAddr) : DUse := if l then .raw f else .reg f

/-! ### Reads (R244 to R249) -/

/-- What the three sizes read from memory (R125, R126). -/
def Memory.readByte (m : Memory) (a : HubAddr) : Word := (m.byte a.toNat).setWidth 32
def Memory.readWord (m : Memory) (a : HubAddr) : Word := (m.word (alignWord a)).setWidth 32
def Memory.readLong (m : Memory) (a : HubAddr) : Word := m.long (alignLong a)

/-- What the three sizes read from the cached line (R140). -/
def lineLong (w : Octet Word) (a : HubAddr) : Word := w.get (bits a 2 3).toFin
def lineWord (w : Octet Word) (a : HubAddr) : Word := (bits (lineLong w a) (16 * (bits a 1 1).toNat) 16).setWidth 32
def lineByte (w : Octet Word) (a : HubAddr) : Word := (bits (lineLong w a) (8 * (bits a 0 2).toNat) 8).setWidth 32

/-- Does the data cache hold an address (R140)? -/
def Wide.holds (w : Wide) (a : HubAddr) : Bool := w.valid && bits a 5 13 == w.tag

/-- Load the aligned wide of an address (R140, R255). Reads through the window may miss it for three instruction cycles
(R1003). -/
def Cog.reload (c : Cog) (m : Memory) (a : HubAddr) : Cog :=
  { c with wide := { c.wide with regs := m.wide (alignWide a), tag := bits a 5 13, valid := true,
                                 olds := ⟨c.wide.regs, 4⟩ :: c.wide.olds } }

/-- The end of every hub read: D, Z by the default, C open (R244, U34). -/
def State.putRead (s : State) (c : Cog) (o : Operands) (f : Dual) (v : Word) (stall : Nat) : Out :=
  s.finishD (c.setFlags f.wz f.wc (zOf v) (Config.freeBit s.turn 2)) o.d v stall

/-- A read that always goes to the hub, two clocks beyond the hub cycle (R139, R244). -/
def State.hubRead (s : State) (f : Dual) (scale : Nat) (read : Memory → HubAddr → Word) : Out :=
  s.withOperands f.cond (.reg f.d) (hubS f.i f.s) fun o s1 =>
    s1.noAugs f.i <| s1.atHub o fun s2 =>
      let u := s2.cog.hubUse f.i o.sv scale
      s2.putRead u.cog o f (read s2.hub.mem u.addr) 2

/-- A cached read: at once on a hit, else through a reload of the line (R140, R245). -/
def State.hubReadC (s : State) (f : Dual) (scale : Nat) (pick : Octet Word → HubAddr → Word) : Out :=
  s.withOperands f.cond (.reg f.d) (hubS f.i f.s) fun o s1 =>
    s1.noAugs f.i <|
      let u := s1.cog.hubUse f.i o.sv scale
      if s1.cog.wide.holds u.addr then s1.putRead u.cog o f (pick u.cog.wide.regs u.addr) 0
      else s1.atHub o fun s2 =>
        let c := u.cog.reload s2.hub.mem u.addr
        s2.putRead c o f (pick c.wide.regs u.addr) 2

/-! ### Writes (R250 to R252) -/

/-- A write in the hub cycle. -/
def State.hubWrite (s : State) (f : DualL) (scale : Nat) (write : Hub → HubAddr → Word → Hub) : Out :=
  s.withOperands f.cond (dl f.l f.d) (hubS f.i f.s) fun o s1 =>
    s1.noAugs f.i <| s1.atHub o fun s2 =>
      let u := s2.cog.hubUse f.i o.sv scale
      { s2 with hub := write s2.hub u.addr o.dv }.finish u.cog

def execRdbyte (f : Dual) (s : State) : Out := s.hubRead f 1 Memory.readByte
def execRdbytec (f : Dual) (s : State) : Out := s.hubReadC f 1 lineByte
def execRdword (f : Dual) (s : State) : Out := s.hubRead f 2 Memory.readWord
def execRdwordc (f : Dual) (s : State) : Out := s.hubReadC f 2 lineWord
def execRdlong (f : Dual) (s : State) : Out := s.hubRead f 4 Memory.readLong
def execRdlongc (f : Dual) (s : State) : Out := s.hubReadC f 4 lineLong
def execWrbyte (f : DualL) (s : State) : Out := s.hubWrite f 1 fun h a v => h.writeByte a (bits v 0 8)
def execWrword (f : DualL) (s : State) : Out := s.hubWrite f 2 fun h a v => h.writeWord a (bits v 0 16)
def execWrlong (f : DualL) (s : State) : Out := s.hubWrite f 4 fun h a v => h.writeLong a v

/-! ### Second names (R202) -/

/-- WRLONG D/#,PTRA++. -/
def execPusha (f : SingleL) (s : State) : Out :=
  s.hubWrite ⟨f.l, true, f.cond, f.d, 0x0C1⟩ 4 fun h a v => h.writeLong a v
/-- WRLONG D/#,PTRB++. -/
def execPushb (f : SingleL) (s : State) : Out :=
  s.hubWrite ⟨f.l, true, f.cond, f.d, 0x1C1⟩ 4 fun h a v => h.writeLong a v
/-- RDLONG D,--PTRA. -/
def execPopa (f : SingleZC) (s : State) : Out := s.hubRead ⟨f.wz, f.wc, true, f.cond, f.d, 0x0BF⟩ 4 Memory.readLong
/-- RDLONG D,--PTRB. -/
def execPopb (f : SingleZC) (s : State) : Out := s.hubRead ⟨f.wz, f.wc, true, f.cond, f.d, 0x1BF⟩ 4 Memory.readLong

/-- The zero word: RDBYTE under the condition that never holds (R198). -/
def execNop (s : State) : Out := s.hubRead ⟨false, false, false, 0, 0, 0⟩ 1 Memory.readByte

/-! ### Wide transfers (R255 to R262) -/

/-- The shape of the wide instructions: D is a register or a pointer expression of scale 32. -/
def State.wideOp (s : State) (f : SingleL) (body : HubUse → Operands → State → Out) : Out :=
  s.withOperands f.cond (hubD f.l f.d) (.raw 0) fun o s1 =>
    s1.noAugd f.l <| body (s1.cog.hubUse f.l o.dv 32) o s1

def execRdwide (f : SingleL) (s : State) : Out :=
  s.wideOp f fun u o s1 => s1.atHub o fun s2 => s2.finish (u.cog.reload s2.hub.mem u.addr)

def execRdwidec (f : SingleL) (s : State) : Out :=
  s.wideOp f fun u o s1 =>
    if s1.cog.wide.holds u.addr then s1.finish u.cog
    else s1.atHub o fun s2 => s2.finish (u.cog.reload s2.hub.mem u.addr)

def execWrwide (f : SingleL) (s : State) : Out :=
  s.wideOp f fun u o s1 => s1.atHub o fun s2 =>
    { s2 with hub := s2.hub.writeWide u.addr u.cog.wide.regs }.finish u.cog

/-- The new window; reads through the one before and through the new one are open for two instructions (R260, R1004). -/
def Cog.setWindow (c : Cog) (v : Word) : Cog :=
  let before := if c.wide.mapped then [⟨c.wide.base, 3⟩] else []
  { c with wide := { c.wide with base := bits v 0 9, mapped := bits v 0 3 == 0, moveLeft := 3,
                                 oldWindows := before ++ c.wide.oldWindows } }

/-- Does an operand of SETWIDE put the window over $1F2..$1FF (U35)? -/
def windowOverPorts (v : Word) : Bool := bits v 0 9 == 0x1F0#9 || bits v 0 9 == 0x1F8#9

/-- SETWIDE and SETWIDZ: the window moves, after `clear`. -/
def State.moveWindow (s : State) (f : SingleL) (clear : Wide → Wide) : Out :=
  s.withOperands f.cond (dl f.l f.d) (.raw 0) fun o s1 =>
    if windowOverPorts o.dv then .refused .wideWindow
    else
      let c := s1.cog
      s1.finish ({ c with wide := clear c.wide }.setWindow o.dv)

def execSetwide (f : SingleL) (s : State) : Out := s.moveWindow f id
/-- The WIDE registers cleared; the cache stays valid (D11). Behind a reload whose read hazard is still open (R1003), the
cleared contents join those that a read may see (log 10). -/
def Wide.cleared (w : Wide) : Wide :=
  let before := match w.olds with | [] => [] | o :: _ => [⟨w.regs, o.left⟩]
  { w with regs := Octet.all 0, olds := before ++ w.olds }

def execSetwidz (f : SingleL) (s : State) : Out := s.moveWindow f Wide.cleared

def execDcachex (f : Zero0) (s : State) : Out := s.config0 f fun c => { c with wide := { c.wide with valid := false } }

/-! ### PTRA and PTRB (R265 to R272) -/

def execGetptra (f : SingleZC) (s : State) : Out := s.readInto f (fun s1 => s1.cog.ptra.setWidth 32) id
def execGetptrb (f : SingleZC) (s : State) : Out := s.readInto f (fun s1 => s1.cog.ptrb.setWidth 32) id
def execSetptra (f : SingleL) (s : State) : Out := s.configL f fun v c => { c with ptra := bits v 0 18 }
def execSetptrb (f : SingleL) (s : State) : Out := s.configL f fun v c => { c with ptrb := bits v 0 18 }
def execAddptra (f : SingleL) (s : State) : Out := s.configL f fun v c => { c with ptra := c.ptra + bits v 0 18 }
def execAddptrb (f : SingleL) (s : State) : Out := s.configL f fun v c => { c with ptrb := c.ptrb + bits v 0 18 }
def execSubptra (f : SingleL) (s : State) : Out := s.configL f fun v c => { c with ptra := c.ptra - bits v 0 18 }
def execSubptrb (f : SingleL) (s : State) : Out := s.configL f fun v c => { c with ptrb := c.ptrb - bits v 0 18 }

end Sys2Proof.Machine
end

