-- ==== Sys2Proof/Machine/IndAux.lean ====
section
/-!
DEFINITION. INDA and INDB pointer instructions, AUX, PTRX and PTRY (42_indirect_aux.md).
-/

set_option Elab.async false

namespace Sys2Proof.Machine

open Sys2Proof

/-! ### INDA and INDB (R321 to R329): no condition, always executed -/

/-- Fix: pointer and limits from the initial and the terminal value (R321). -/
def IndReg.fix (initial terminal : RegAddr) : IndReg :=
  if initial.toNat ≤ terminal.toNat then ⟨initial, initial, terminal⟩ else ⟨initial, terminal, initial⟩

/-- Set to an address, limits $000 and $1FF (R324). -/
def IndReg.setAbs (a : RegAddr) : IndReg := ⟨a, 0, 0x1FF⟩

/-- Move by a signed delta modulo 512, limits $000 and $1FF (R325). -/
def IndReg.setRel (r : IndReg) (delta : RegAddr) : IndReg := ⟨r.ptr + delta, 0, 0x1FF⟩

/-- The shape of all eleven forms. -/
def State.setInds (s : State) (a b : IndReg → IndReg) : Out :=
  let c := s.cog
  s.finish { c with inda := a c.inda, indb := b c.indb }

def execFixinda (f : Ind) (s : State) : Out := s.setInds (fun _ => IndReg.fix f.s f.d) id
def execFixindb (f : Ind) (s : State) : Out := s.setInds id fun _ => IndReg.fix f.s f.d
def execFixinds (f : Ind) (s : State) : Out := s.setInds (fun _ => IndReg.fix f.s f.d) fun _ => IndReg.fix f.s f.d
def execSetindaAbs (f : Ind) (s : State) : Out := s.setInds (fun _ => IndReg.setAbs f.s) id
def execSetindaRel (f : Ind) (s : State) : Out := s.setInds (fun r => r.setRel f.s) id
def execSetindbAbs (f : Ind) (s : State) : Out := s.setInds id fun _ => IndReg.setAbs f.d
def execSetindbRel (f : Ind) (s : State) : Out := s.setInds id fun r => r.setRel f.d
def execSetindsAbsAbs (f : Ind) (s : State) : Out :=
  s.setInds (fun _ => IndReg.setAbs f.s) fun _ => IndReg.setAbs f.d
def execSetindsAbsRel (f : Ind) (s : State) : Out := s.setInds (fun r => r.setRel f.s) fun _ => IndReg.setAbs f.d
def execSetindsRelAbs (f : Ind) (s : State) : Out := s.setInds (fun _ => IndReg.setAbs f.s) fun r => r.setRel f.d
def execSetindsRelRel (f : Ind) (s : State) : Out := s.setInds (fun r => r.setRel f.s) fun r => r.setRel f.d

/-! ### AUX addresses (R350 to R353) -/

/-- An AUX address and the cog after the pointer update that belongs to it. -/
structure AuxUse where
  addr : Byte
  cog : Cog

/-- The pointer expression S U P NNNNN in the low eight bits of a field (R352). -/
def Cog.auxPointer (c : Cog) (f : RegAddr) : AuxUse :=
  let useY := f.getLsbD 7
  let ptr := if useY then c.ptry else c.ptrx
  let moved := ptr + (bits f 0 5).signExtend 8
  let next := if f.getLsbD 6 then moved else ptr
  { addr := if f.getLsbD 5 then ptr else moved
    cog := if useY then { c with ptry := next } else { c with ptrx := next } }

/-- The apparent address: a register's low eight bits, a constant, or a pointer expression (R350). -/
def Cog.auxUse (c : Cog) (constant : Bool) (v : Word) : AuxUse :=
  if constant && v.getLsbD 8 then c.auxPointer (bits v 0 9) else ⟨bits v 0 8, c⟩

/-- An instruction that AUX accesses or pointer writes make unsafe while XFR runs in an AUX mode (R853, U20). -/
def State.auxFree (s : State) (go : Out) : Out := if s.cog.xfr.usesAux then .refused .auxBusy else go

/-- The S operand of an AUX instruction. -/
def auxS (i : Bool) (f : RegAddr) : SUse := if i then .raw f else .reg f

/-- Read AUX at the apparent address passed through `way` (R341, R342); C is open (U34). A pending AUGS must not meet
the constant form (R353, U31); if the condition fails, the instruction passes on and the latch stays pending (DESIGN
CHOICE, log 23). -/
def State.auxLoad (s : State) (f : Dual) (way : Byte → Byte) : Out :=
  s.withOperands f.cond (.reg f.d) (auxS f.i f.s) fun o s1 =>
    s1.noAugs f.i <| s1.auxFree <|
      let u := s1.cog.auxUse f.i o.sv
      let v := auxRead u.cog.aux (way u.addr)
      s1.finishD (u.cog.setFlags f.wz f.wc (zOf v) (Config.freeBit s1.turn 2)) o.d v (if f.i then 0 else 1)

/-- Does a word read AUX in a way that costs a WRAUX just before it a clock: RDAUX, RDAUXR (POPX, POPY) with a constant
or a pointer, RETX, RETY and their delayed forms, $104 to $107 (R343, R478, R1009, C28)? -/
def readsAux (w : Word) : Bool :=
  (bits w 26 6 == 0b000011#6 && w.getLsbD 22) || (bits w 25 7 == 0b1111111#7 && bits w 2 7 == 0b1000001#7)

/-- The extra clocks of a WRAUX: one if such an instruction follows directly (R1020). -/
def Pipe.auxStall (p : Pipe) : Nat :=
  match p.queue with
  | e :: _ => if !e.cancelled && readsAux e.word then 1 else 0
  | [] => 0

/-- Write AUX at the apparent address passed through `way` (R343, R344). -/
def State.auxStore (s : State) (f : DualL) (way : Byte → Byte) : Out :=
  s.withOperands f.cond (dl f.l f.d) (auxS f.i f.s) fun o s1 =>
    s1.noAugs f.i <| s1.auxFree <|
      let u := s1.cog.auxUse f.i o.sv
      s1.finish { u.cog with aux := auxWrite u.cog.aux (way u.addr) o.dv } s1.cog.pipe.auxStall

def execRdaux (f : Dual) (s : State) : Out := s.auxLoad f id
/-- Reverse addressing complements the apparent address (D12). -/
def execRdauxr (f : Dual) (s : State) : Out := s.auxLoad f fun a => ~~~a
def execWraux (f : DualL) (s : State) : Out := s.auxStore f id
def execWrauxr (f : DualL) (s : State) : Out := s.auxStore f fun a => ~~~a

/-! ### Second names (R345) -/

/-- WRAUX D/#,PTRX++. -/
def execPushx (f : SingleL) (s : State) : Out := s.auxStore ⟨f.l, true, f.cond, f.d, 0x161⟩ id
/-- WRAUXR D/#,PTRY++. -/
def execPushy (f : SingleL) (s : State) : Out := s.auxStore ⟨f.l, true, f.cond, f.d, 0x1E1⟩ fun a => ~~~a
/-- RDAUX D,--PTRX. -/
def execPopx (f : SingleZC) (s : State) : Out := s.auxLoad ⟨f.wz, f.wc, true, f.cond, f.d, 0x15F⟩ id
/-- RDAUXR D,--PTRY. -/
def execPopy (f : SingleZC) (s : State) : Out := s.auxLoad ⟨f.wz, f.wc, true, f.cond, f.d, 0x1DF⟩ fun a => ~~~a

/-! ### PTRX and PTRY (R360 to R369) -/

/-- Read a pointer into D; Z and C tell zero and the top bit. -/
def State.readAuxPtr (s : State) (f : SingleZC) (ptr : Cog → Byte) : Out :=
  s.withOperands f.cond (.reg f.d) (.raw 0) fun o s1 =>
    let p := ptr s1.cog
    s1.finishD (s1.cog.setFlags f.wz f.wc (p == 0) p.msb) o.d (p.setWidth 32)

/-- Zero and the top bit of a pointer into Z and C. -/
def State.checkAuxPtr (s : State) (f : Zero0ZC) (ptr : Cog → Byte) : Out :=
  s.conditional f.cond fun _ s1 => s1.putFlags f.wz f.wc (ptr s1.cog == 0) (ptr s1.cog).msb

/-- Change PTRY, which the pin transfer unit may be using (R853, U20). -/
def State.writePtry (s : State) (f : SingleL) (g : Byte → Byte → Byte) : Out :=
  s.withOperands f.cond (dl f.l f.d) (.raw 0) fun o s1 =>
    s1.auxFree <| s1.finish { s1.cog with ptry := g s1.cog.ptry (bits o.dv 0 8) }

def execGetptrx (f : SingleZC) (s : State) : Out := s.readAuxPtr f Cog.ptrx
def execGetptry (f : SingleZC) (s : State) : Out := s.readAuxPtr f Cog.ptry
def execSetptrx (f : SingleL) (s : State) : Out := s.configL f fun v c => { c with ptrx := bits v 0 8 }
def execSetptry (f : SingleL) (s : State) : Out := s.writePtry f fun _ v => v
def execAddptrx (f : SingleL) (s : State) : Out := s.configL f fun v c => { c with ptrx := c.ptrx + bits v 0 8 }
def execAddptry (f : SingleL) (s : State) : Out := s.writePtry f fun p v => p + v
def execSubptrx (f : SingleL) (s : State) : Out := s.configL f fun v c => { c with ptrx := c.ptrx - bits v 0 8 }
def execSubptry (f : SingleL) (s : State) : Out := s.writePtry f fun p v => p - v
def execChkptrx (f : Zero0ZC) (s : State) : Out := s.checkAuxPtr f Cog.ptrx
def execChkptry (f : Zero0ZC) (s : State) : Out := s.checkAuxPtr f Cog.ptry

end Sys2Proof.Machine
end

