-- ==== Sys2Proof/Machine/Branch.lean ====
section
/-!
DEFINITION. Branches, calls and returns, address instructions, the task stack, AUGS and AUGD, the instruction cache
(44_branches.md).
-/

set_option Elab.async false

namespace Sys2Proof.Machine

open Sys2Proof

/-! ### Common parts (R450 to R454, R510) -/

/-- A taken branch, normal or delayed. -/
def State.take (s : State) (c : Cog) (target : Addr) (delayed : Bool) (stall : Nat := 0) : Out :=
  if delayed then s.branchD c target stall else s.branch c target stall

/-- The saved long of a call: Z, C and the return address, three instructions further on for a delayed branch (R452). -/
def Task.saved (k : Task) (delayed : Bool) : Word :=
  let r : Addr := if delayed then k.pc + 4 else k.pc + 1
  (BitVec.ofBool k.z ++ (BitVec.ofBool k.c ++ r)).setWidth 32

/-- The target of a BIG16 branch (R453). -/
def State.bigTarget (s : State) (n : Addr) (rel : Bool) : Addr := if rel then s.task.pc + n else n

/-- Where a call saves and a return restores. -/
inductive CallStack where
  /-- The task's own four longs. -/
  | task
  /-- Hub memory at PTRA or PTRB, growing up. -/
  | hubA
  | hubB
  /-- AUX at PTRX, growing up. -/
  | auxX
  /-- AUX at the complement of PTRY, growing down. -/
  | auxY
deriving DecidableEq, Repr

/-- Push on the task stack (R510, U12). -/
def State.pushTask (s : State) (v : Word) (go : State → Out) : Out :=
  let k := s.task
  if k.stack.length < 4 then go (s.setCog (s.cog.setTask { k with stack := v :: k.stack }))
  else .fault .stackOverflow

/-- Pop from the task stack (R510, U12). -/
def State.popTask (s : State) (go : Word → State → Out) : Out :=
  let k := s.task
  match k.stack with
  | [] => .fault .stackUnderflow
  | v :: rest => go v (s.setCog (s.cog.setTask { k with stack := rest }))

/-- Save a long as a call does (R462 to R471). -/
def State.pushOn (s : State) (o : Operands) (k : CallStack) (v : Word) (go : State → Out) : Out :=
  let c := s.cog
  match k with
  | .task => s.pushTask v go
  | .hubA => s.atHub o fun s2 =>
      go ({ s2 with hub := s2.hub.writeLong c.ptra v }.setCog { c with ptra := c.ptra + 4 })
  | .hubB => s.atHub o fun s2 =>
      go ({ s2 with hub := s2.hub.writeLong c.ptrb v }.setCog { c with ptrb := c.ptrb + 4 })
  | .auxX => s.auxFree <| go (s.setCog { c with aux := auxWrite c.aux c.ptrx v, ptrx := c.ptrx + 1 })
  | .auxY => s.auxFree <| go (s.setCog { c with aux := auxWrite c.aux (~~~c.ptry) v, ptry := c.ptry + 1 })

/-- Restore a long as a return does (R472 to R481). -/
def State.popFrom (s : State) (o : Operands) (k : CallStack) (go : Word → State → Out) : Out :=
  let c := s.cog
  match k with
  | .task => s.popTask go
  | .hubA => s.atHub o fun s2 =>
      let p := c.ptra - 4
      go (s2.hub.mem.readLong p) (s2.setCog { c with ptra := p })
  | .hubB => s.atHub o fun s2 =>
      let p := c.ptrb - 4
      go (s2.hub.mem.readLong p) (s2.setCog { c with ptrb := p })
  | .auxX => s.auxFree <|
      let p := c.ptrx - 1
      go (auxRead c.aux p) (s.setCog { c with ptrx := p })
  | .auxY => s.auxFree <|
      let p := c.ptry - 1
      go (auxRead c.aux (~~~p)) (s.setCog { c with ptry := p })

/-- A hub read holds stage 4 for two clocks more (R139). -/
def CallStack.popStall (k : CallStack) : Nat := if k = .hubA ∨ k = .hubB then 2 else 0

/-! ### Jumps and calls (R460 to R471) -/

/-- JMP and JMPD, BIG16 forms. -/
def State.jumpBig (s : State) (f : Big) (rel delayed : Bool) : Out :=
  s.conditional f.cond fun _ s1 => s1.noAugs true <| s1.take s1.cog (s1.bigTarget f.n rel) delayed

/-- JMP and JMPD, register forms: Z and C from bits 31 and 30 of D (R454). -/
def State.jumpReg (s : State) (f : SingleZC) (delayed : Bool) : Out :=
  s.withOperands f.cond (.reg f.d) (.raw 0) fun o s1 =>
    s1.take (s1.cog.setFlags f.wz f.wc (o.dv.getLsbD 31) (o.dv.getLsbD 30)) (bits o.dv 0 16) delayed

/-- Calls, BIG16 forms. -/
def State.callBig (s : State) (f : Big) (k : CallStack) (rel delayed : Bool) : Out :=
  s.conditional f.cond fun o s1 =>
    s1.noAugs true <| s1.pushOn o k (s1.task.saved delayed) fun s2 => s2.take s2.cog (s2.bigTarget f.n rel) delayed

/-- Calls, register forms: the flags saved are those before the load (R454). -/
def State.callReg (s : State) (f : SingleZC) (k : CallStack) (delayed : Bool) : Out :=
  s.withOperands f.cond (.reg f.d) (.raw 0) fun o s1 =>
    s1.pushOn o k (s1.task.saved delayed) fun s2 =>
      s2.take (s2.cog.setFlags f.wz f.wc (o.dv.getLsbD 31) (o.dv.getLsbD 30)) (bits o.dv 0 16) delayed

def execJmpAbs (f : Big) (s : State) : Out := s.jumpBig f false false
def execJmpRel (f : Big) (s : State) : Out := s.jumpBig f true false
def execJmpReg (f : SingleZC) (s : State) : Out := s.jumpReg f false
def execJmpdAbs (f : Big) (s : State) : Out := s.jumpBig f false true
def execJmpdRel (f : Big) (s : State) : Out := s.jumpBig f true true
def execJmpdReg (f : SingleZC) (s : State) : Out := s.jumpReg f true
def execCallAbs (f : Big) (s : State) : Out := s.callBig f .task false false
def execCallRel (f : Big) (s : State) : Out := s.callBig f .task true false
def execCallReg (f : SingleZC) (s : State) : Out := s.callReg f .task false
def execCalldAbs (f : Big) (s : State) : Out := s.callBig f .task false true
def execCalldRel (f : Big) (s : State) : Out := s.callBig f .task true true
def execCalldReg (f : SingleZC) (s : State) : Out := s.callReg f .task true
def execCallaAbs (f : Big) (s : State) : Out := s.callBig f .hubA false false
def execCallaRel (f : Big) (s : State) : Out := s.callBig f .hubA true false
def execCallaReg (f : SingleZC) (s : State) : Out := s.callReg f .hubA false
def execCalladAbs (f : Big) (s : State) : Out := s.callBig f .hubA false true
def execCalladRel (f : Big) (s : State) : Out := s.callBig f .hubA true true
def execCalladReg (f : SingleZC) (s : State) : Out := s.callReg f .hubA true
def execCallbAbs (f : Big) (s : State) : Out := s.callBig f .hubB false false
def execCallbRel (f : Big) (s : State) : Out := s.callBig f .hubB true false
def execCallbReg (f : SingleZC) (s : State) : Out := s.callReg f .hubB false
def execCallbdAbs (f : Big) (s : State) : Out := s.callBig f .hubB false true
def execCallbdRel (f : Big) (s : State) : Out := s.callBig f .hubB true true
def execCallbdReg (f : SingleZC) (s : State) : Out := s.callReg f .hubB true
def execCallxAbs (f : Big) (s : State) : Out := s.callBig f .auxX false false
def execCallxRel (f : Big) (s : State) : Out := s.callBig f .auxX true false
def execCallxReg (f : SingleZC) (s : State) : Out := s.callReg f .auxX false
def execCallxdAbs (f : Big) (s : State) : Out := s.callBig f .auxX false true
def execCallxdRel (f : Big) (s : State) : Out := s.callBig f .auxX true true
def execCallxdReg (f : SingleZC) (s : State) : Out := s.callReg f .auxX true
def execCallyAbs (f : Big) (s : State) : Out := s.callBig f .auxY false false
def execCallyRel (f : Big) (s : State) : Out := s.callBig f .auxY true false
def execCallyReg (f : SingleZC) (s : State) : Out := s.callReg f .auxY false
def execCallydAbs (f : Big) (s : State) : Out := s.callBig f .auxY false true
def execCallydRel (f : Big) (s : State) : Out := s.callBig f .auxY true true
def execCallydReg (f : SingleZC) (s : State) : Out := s.callReg f .auxY true

/-! ### Returns (R472 to R481) -/

/-- Restore the PC and, where asked, the flags from the saved long. -/
def State.ret (s : State) (f : Zero0ZC) (k : CallStack) (delayed : Bool) : Out :=
  s.conditional f.cond fun o s1 => s1.popFrom o k fun v s2 =>
    s2.take (s2.cog.setFlags f.wz f.wc (v.getLsbD 17) (v.getLsbD 16)) (bits v 0 16) delayed k.popStall

def execRet (f : Zero0ZC) (s : State) : Out := s.ret f .task false
def execRetd (f : Zero0ZC) (s : State) : Out := s.ret f .task true
def execReta (f : Zero0ZC) (s : State) : Out := s.ret f .hubA false
def execRetad (f : Zero0ZC) (s : State) : Out := s.ret f .hubA true
def execRetb (f : Zero0ZC) (s : State) : Out := s.ret f .hubB false
def execRetbd (f : Zero0ZC) (s : State) : Out := s.ret f .hubB true
def execRetx (f : Zero0ZC) (s : State) : Out := s.ret f .auxX false
def execRetxd (f : Zero0ZC) (s : State) : Out := s.ret f .auxX true
def execRety (f : Zero0ZC) (s : State) : Out := s.ret f .auxY false
def execRetyd (f : Zero0ZC) (s : State) : Out := s.ret f .auxY true

/-! ### JMPSW and the conditional jumps (R482 to R500) -/

/-- JMPSW and JMPSWD: the target and the new flags come from S, the old ones and the return address go to D (R482). -/
def State.jumpSwap (s : State) (f : Dual) (delayed : Bool) : Out :=
  s.withOperands f.cond (.reg f.d) (sr f.i f.s) fun o s1 =>
    if isWindow o.d then .refused .indirectWindow
    else
      let c := s1.cog.setFlags f.wz f.wc (o.sv.getLsbD 17) (o.sv.getLsbD 16)
      s1.take (c.writeReg o.d (s1.task.saved delayed)) (bits o.sv 0 16) delayed

def execJmpsw (f : Dual) (s : State) : Out := s.jumpSwap f false
def execJmpswd (f : Dual) (s : State) : Out := s.jumpSwap f true
/-- JMPSW INDB,++INDB WZ,WC (R484). -/
def execSwitch (s : State) : Out := s.jumpSwap ⟨true, true, false, 0x3, 0x1F3, 0x1F3⟩ false
/-- JMPSWD INDB,++INDB WZ,WC (R484). -/
def execSwitchd (s : State) : Out := s.jumpSwap ⟨true, true, false, 0x3, 0x1F3, 0x1F3⟩ true

/-- Count D and jump by a test of the result (R485 to R492). -/
def State.countJump (s : State) (f : DualP) (count : Word → Word) (test : Word → Bool) (delayed : Bool) : Out :=
  s.withOperands f.cond (.reg f.d) (sr f.i f.s) fun o s1 =>
    if isWindow o.d then .refused .indirectWindow
    else
      let c := s1.cog.writeReg o.d (count o.dv)
      if test (count o.dv) then s1.take c (bits o.sv 0 16) delayed else s1.fallThrough c

def Word.isZero (v : Word) : Bool := v == 0
def Word.isNonzero (v : Word) : Bool := v != 0

def execIjz (f : DualP) (s : State) : Out := s.countJump f (· + 1) Word.isZero false
def execIjzd (f : DualP) (s : State) : Out := s.countJump f (· + 1) Word.isZero true
def execIjnz (f : DualP) (s : State) : Out := s.countJump f (· + 1) Word.isNonzero false
def execIjnzd (f : DualP) (s : State) : Out := s.countJump f (· + 1) Word.isNonzero true
def execDjz (f : DualP) (s : State) : Out := s.countJump f (· - 1) Word.isZero false
def execDjzd (f : DualP) (s : State) : Out := s.countJump f (· - 1) Word.isZero true
def execDjnz (f : DualP) (s : State) : Out := s.countJump f (· - 1) Word.isNonzero false
def execDjnzd (f : DualP) (s : State) : Out := s.countJump f (· - 1) Word.isNonzero true

/-- Jump by a test of D (R493 to R496). -/
def State.testJump (s : State) (f : DualP) (test : Word → Bool) (delayed : Bool) : Out :=
  s.withOperands f.cond (.reg f.d) (sr f.i f.s) fun o s1 =>
    if test o.dv then s1.take s1.cog (bits o.sv 0 16) delayed else s1.fallThrough s1.cog

def execJz (f : DualP) (s : State) : Out := s.testJump f Word.isZero false
def execJzd (f : DualP) (s : State) : Out := s.testJump f Word.isZero true
def execJnz (f : DualP) (s : State) : Out := s.testJump f Word.isNonzero false
def execJnzd (f : DualP) (s : State) : Out := s.testJump f Word.isNonzero true

/-- Jump by the level of the pin in D (R497 to R500). -/
def State.pinJump (s : State) (f : DualL) (level delayed : Bool) : Out :=
  s.withOperands f.cond (dl f.l f.d) (sr f.i f.s) fun o s1 =>
    if s1.pinIn s1.cog (bits o.dv 0 7) == level then s1.take s1.cog (bits o.sv 0 16) delayed
    else s1.fallThrough s1.cog

def execJp (f : DualL) (s : State) : Out := s.pinJump f true false
def execJpd (f : DualL) (s : State) : Out := s.pinJump f true true
def execJnp (f : DualL) (s : State) : Out := s.pinJump f false false
def execJnpd (f : DualL) (s : State) : Out := s.pinJump f false true

/-! ### JMPLIST and addresses (R501 to R508) -/

def execJmplist (f : DualP) (s : State) : Out :=
  s.withOperands f.cond (.reg f.d) (sr f.i f.s) fun o s1 => s1.branch s1.cog (bits o.dv 0 16 + bits o.sv 0 16)

/-- The hub byte address of an instruction address. -/
def hubOfInstr (a : Addr) : Word := a.setWidth 32 <<< 2

/-- LOCBYTE, LOCWORD, LOCLONG: a sum of 2^18 or more has an open upper part (R503, U45). -/
def State.locate (s : State) (f : DualP) (shift : Nat) : Out :=
  s.withOperands f.cond (.reg f.d) (sr f.i f.s) fun o s1 =>
    let r := (o.dv <<< shift) + hubOfInstr (bits o.sv 0 16)
    let upper : BitVec 14 := if r.toNat < 2 ^ 18 then 0 else bits (Config.freeWord s1.turn 1) 0 14
    s1.finishD s1.cog o.d (upper ++ bits r 0 18)

def execLocbase (f : DualP) (s : State) : Out :=
  s.withOperands f.cond (.reg f.d) (sr f.i f.s) fun o s1 => s1.finishD s1.cog o.d (hubOfInstr (bits o.sv 0 16))
def execLocbyte (f : DualP) (s : State) : Out := s.locate f 0
def execLocword (f : DualP) (s : State) : Out := s.locate f 1
def execLoclong (f : DualP) (s : State) : Out := s.locate f 2

/-- LOCINST: a pending AUGS is not used (R506). -/
def execLocinst (f : Loc) (s : State) : Out :=
  s.withOperands f.cond (.reg f.d) (.raw 0) fun o s1 =>
    s1.finishD s1.cog o.d ((s1.task.pc + f.s.signExtend 16).setWidth 32)

/-- LOCPTRA and LOCPTRB (R507, R508). A pending AUGS must not meet the 16-bit constant (U31); if the condition fails, the
instruction passes on and the latch stays pending (DESIGN CHOICE, log 23). -/
def State.locPtr (s : State) (f : Big) (rel : Bool) (put : HubAddr → Cog → Cog) : Out :=
  s.conditional f.cond fun _ s1 =>
    s1.noAugs true <| s1.finish (put (bits (hubOfInstr (s1.bigTarget f.n rel)) 0 18) s1.cog)

def execLocptraAbs (f : Big) (s : State) : Out := s.locPtr f false fun a c => { c with ptra := a }
def execLocptraRel (f : Big) (s : State) : Out := s.locPtr f true fun a c => { c with ptra := a }
def execLocptrbAbs (f : Big) (s : State) : Out := s.locPtr f false fun a c => { c with ptrb := a }
def execLocptrbRel (f : Big) (s : State) : Out := s.locPtr f true fun a c => { c with ptrb := a }

/-! ### Task stack and flags (R511 to R515) -/

def execPush (f : SingleL) (s : State) : Out :=
  s.withOperands f.cond (dl f.l f.d) (.raw 0) fun o s1 => s1.pushTask o.dv fun s2 => s2.finish s2.cog

/-- POP; C is open (U34). -/
def execPop (f : SingleZC) (s : State) : Out :=
  s.withOperands f.cond (.reg f.d) (.raw 0) fun o s1 => s1.popTask fun v s2 =>
    s2.putResult o f.wz f.wc (Result.of v (Config.freeBit s2.turn 2))

/-- SETZC: Z and C from bits 1 and 0 of D (R513). -/
def execSetzc (f : SingleZCL) (s : State) : Out :=
  s.withOperands f.cond (dl f.l f.d) (.raw 0) fun o s1 => s1.putFlags f.wz f.wc (o.dv.getLsbD 1) (o.dv.getLsbD 0)

/-- PUSHZC is listed without an effect (R514, U46). -/
def execPushzc (f : SingleZC) (s : State) : Out :=
  s.withOperands f.cond (.reg f.d) (.raw 0) fun _ _ => .refused .flagStackUndescribed
/-- POPZC is listed without an effect (R515, U46). -/
def execPopzc (f : SingleZC) (s : State) : Out :=
  s.withOperands f.cond (.reg f.d) (.raw 0) fun _ _ => .refused .flagStackUndescribed

/-! ### AUGS and AUGD (R530, R531): no condition -/

def execAugs (n : BitVec 23) (s : State) : Out := s.finish (s.cog.setTask { s.task with augs := some n })
def execAugd (n : BitVec 23) (s : State) : Out := s.finish (s.cog.setTask { s.task with augd := some n })

/-! ### The instruction cache (R540 to R542) -/

/-- ICACHEX: all lines invalid; what hub memory held before now can no longer be fetched (U10). DESIGN CHOICE: the words
already in the queue, up to three, stay as they were fetched (R540, log 30). -/
def execIcachex (f : Zero0) (s : State) : Out :=
  s.conditional f.cond fun _ s1 =>
    let q := s1.cog.icache
    let lines := q.lines.mapIdx fun _ l => { l with valid := false }
    s1.finish { s1.cog with icache := { q with lines := lines, since := s1.hub.hist.length } }

def execIcachep (f : Zero0) (s : State) : Out :=
  s.config0 f fun c => { c with icache := { c.icache with prefetch := true } }
def execIcachen (f : Zero0) (s : State) : Out :=
  s.config0 f fun c => { c with icache := { c.icache with prefetch := false } }

end Sys2Proof.Machine
end

