-- ==== Sys2Proof/Machine/HubCtl.lean ====
section
/-!
DEFINITION. Cogs, the clock register and the locks (41_hub_control.md).
-/

set_option Elab.async false

namespace Sys2Proof.Machine

open Sys2Proof

/-- The lowest of eight for which a test holds. -/
def lowest (q : Octet Bool) : Option (Fin 8) :=
  if q.e0 then some 0 else if q.e1 then some 1 else if q.e2 then some 2 else if q.e3 then some 3
  else if q.e4 then some 4 else if q.e5 then some 5 else if q.e6 then some 6 else if q.e7 then some 7 else none

/-- The lowest-numbered idle cog (R291). -/
def State.idleCog (s : State) : Option (Fin 8) := lowest (s.cogs.mapIdx fun _ c => decide (c.run = .idle))

/-- The lowest-numbered free lock (R303, D21). -/
def State.freeLock (s : State) : Option (Fin 8) := lowest (s.hub.lockTaken.mapIdx fun _ t => !t)

/-- The cog or lock an operand names: its low three bits (R297, R307). -/
def unitOf (v : Word) : Fin 8 := (bits v 0 3).toFin

/-- The number of a cog or lock as a word. -/
def numberWord (k : Fin 8) : Word := (BitVec.ofFin k : BitVec 3).setWidth 32

/-- COGNEW (R291). The answer in D is open when no cog is idle (U36). -/
def execCognew (f : DualC) (s : State) : Out :=
  s.withOperands f.cond (.reg f.d) (si f.i f.s) fun o s1 => s1.atHub o fun s2 =>
    match s2.idleCog with
    | some k =>
      let s3 := s2.startCog k o.dv o.sv
      s3.finishD (s3.cog.setFlags false f.wc false false) o.d (numberWord k) 1
    | none => s2.finishD (s2.cog.setFlags false f.wc false true) o.d (Config.freeWord s2.turn 1) 1

/-- COGINIT (R292). Of its own cog it is the last instruction (D20). -/
def execCoginit (n : BitVec 3) (f : DualP) (s : State) : Out :=
  s.withOperands f.cond (.reg f.d) (si f.i f.s) fun o s1 => s1.atHub o fun s2 =>
    let s3 := s2.startCog n.toFin o.dv o.sv
    if n.toFin = s2.cur then .next s3 else s3.finish s3.cog

/-- COGID (R297). With WC it reports on the cog in D and does not write D; then Z is open. -/
def execCogid (f : SingleZC) (s : State) : Out :=
  s.withOperands f.cond (.reg f.d) (.raw 0) fun o s1 => s1.atHub o fun s2 =>
    if f.wc then
      let busy := decide ((s2.cogs.get (unitOf o.dv)).run ≠ .idle)
      s2.finish (s2.cog.setFlags f.wz true (Config.freeBit s2.turn 1) busy) 1
    else s2.finishD (s2.cog.setFlags f.wz false (zOf (numberWord s2.cur)) false) o.d (numberWord s2.cur) 1

/-- COGSTOP (R298). Of its own cog it is the last instruction (D20). -/
def execCogstop (f : SingleL) (s : State) : Out :=
  s.withOperands f.cond (dl f.l f.d) (.raw 0) fun o s1 => s1.atHub o fun s2 =>
    let s3 := s2.stopCog (unitOf o.dv)
    if unitOf o.dv = s2.cur then .next s3 else s3.finish s3.cog

/-- Does a setting of CLK select a clock source that it leaves off: the PLL with PLL mode or XI disabled, or XTAL with XI
disabled (R34, R300)? -/
def clockOff (v : BitVec 9) : Bool :=
  let noXi := bits v 2 2 == 0
  let source := bits v 0 2
  (source == 3 && (noXi || bits v 4 4 == 0)) || (source == 2 && noXi)

/-- CLKSET (R300): with R set, chip reset (R990), which clears CLK whatever source the operand selects (log 45). To select a
source that is off is refused (U39). -/
def execClkset (f : SingleL) (s : State) : Out :=
  s.withOperands f.cond (dl f.l f.d) (.raw 0) fun o s1 => s1.atHub o fun s2 =>
    let s3 := { s2 with hub := { s2.hub with clk := bits o.dv 0 9 } }
    if o.dv.getLsbD 8 then .next s3.chipReset
    else if clockOff (bits o.dv 0 9) then .refused .clockSource
    else s3.finish s3.cog

/-- LOCKNEW (R303). D and Z are open when no lock is free (U36). -/
def execLocknew (f : SingleZC) (s : State) : Out :=
  s.withOperands f.cond (.reg f.d) (.raw 0) fun o s1 => s1.atHub o fun s2 =>
    match s2.freeLock with
    | some k =>
      let s3 := { s2 with hub := { s2.hub with lockTaken := s2.hub.lockTaken.set k true } }
      s3.finishD (s3.cog.setFlags f.wz f.wc (zOf (numberWord k)) false) o.d (numberWord k) 1
    | none =>
      s2.finishD (s2.cog.setFlags f.wz f.wc (Config.freeBit s2.turn 1) true) o.d (Config.freeWord s2.turn 1) 1

/-- LOCKRET (R304). -/
def execLockret (f : SingleL) (s : State) : Out :=
  s.withOperands f.cond (dl f.l f.d) (.raw 0) fun o s1 => s1.atHub o fun s2 =>
    { s2 with hub := { s2.hub with lockTaken := s2.hub.lockTaken.set (unitOf o.dv) false } }.finish s2.cog

/-- Read a lock's state into C and write it, in one hub cycle (R305, R306). -/
def State.lockOp (s : State) (f : SingleCL) (v : Bool) : Out :=
  s.withOperands f.cond (dl f.l f.d) (.raw 0) fun o s1 => s1.atHub o fun s2 =>
    let k := unitOf o.dv
    let s3 := { s2 with hub := { s2.hub with lockState := s2.hub.lockState.set k v } }
    s3.finish (s3.cog.setFlags false f.wc false (s2.hub.lockState.get k)) (if f.wc then 1 else 0)

def execLockset (f : SingleCL) (s : State) : Out := s.lockOp f true
def execLockclr (f : SingleCL) (s : State) : Out := s.lockOp f false

end Sys2Proof.Machine
end

