-- ==== Sys2Proof/Machine/MathOps.lean ====
section
/-!
DEFINITION. Multiplier, divider, square rooter, CORDIC engine and accumulators (46_math_engines.md). A start instruction
writes the results at once and sets the count of clocks until they can be read (R721).
-/

set_option Elab.async false

namespace Sys2Proof.Machine

open Sys2Proof

/-! ### Starting and reading (R720 to R723) -/

/-- The cog with its math unit replaced. -/
def Cog.withMath (c : Cog) (m : MathUnit) : Cog := { c with math := m }

/-- Starting an engine, or writing its setup register, while it is busy is refused (R722, U48). -/
def State.engineFree (s : State) (left : MathUnit → Nat) (go : Out) : Out :=
  if left s.cog.math ≠ 0 then .refused .engineBusy else go

/-- A start instruction with two operands. -/
def State.startL (s : State) (f : DualL) (left : MathUnit → Nat) (g : Operands → State → MathUnit) : Out :=
  s.withOperands f.cond (dl f.l f.d) (si f.i f.s) fun o s1 =>
    s1.engineFree left <| s1.finish (s1.cog.withMath (g o s1))

/-- A start or setup instruction with one operand. -/
def State.start1 (s : State) (f : SingleL) (left : MathUnit → Nat) (g : Word → State → MathUnit) : Out :=
  s.withOperands f.cond (dl f.l f.d) (.raw 0) fun o s1 =>
    s1.engineFree left <| s1.finish (s1.cog.withMath (g o.dv s1))

/-- A result instruction: it waits, by looping in multi-task mode (R398); C is open (R723, U34). -/
def State.readResult (s : State) (f : SingleZC) (left : MathUnit → Nat) (value : MathUnit → Word) : Out :=
  s.withOperands f.cond (.reg f.d) (.raw 0) fun o s1 =>
    s1.waitFor o (left s1.cog.math == 0) fun s2 =>
      s2.putResult o f.wz f.wc (Result.of (value s2.cog.math) (Config.freeBit s2.turn 2))

/-! ### Multiplier (R724 to R727) -/

def execMul32 (f : DualL) (s : State) : Out :=
  s.startL f MathUnit.mulLeft fun o s1 =>
    { s1.cog.math with mulResult := o.dv.signExtend 64 * o.sv.signExtend 64, mulLeft := 18 }

def execMul32u (f : DualL) (s : State) : Out :=
  s.startL f MathUnit.mulLeft fun o s1 =>
    { s1.cog.math with mulResult := o.dv.setWidth 64 * o.sv.setWidth 64, mulLeft := 18 }

def execGetmull (f : SingleZC) (s : State) : Out := s.readResult f MathUnit.mulLeft fun m => bits m.mulResult 0 32
def execGetmulh (f : SingleZC) (s : State) : Out := s.readResult f MathUnit.mulLeft fun m => bits m.mulResult 32 32

/-! ### Divider (R728 to R736) -/

/-- Signed division toward zero; any value where the denominator is zero or the quotient does not fit (R728, U49). -/
def signedDivide (turn op : Nat) (n : BitVec 64) (m : Word) : Word × Word :=
  let q := n.toInt.tdiv m.toInt
  if m = 0 || q < -(2 ^ 31) || 2 ^ 31 ≤ q then Config.divOpen turn op n m
  else (BitVec.ofInt 32 q, BitVec.ofInt 32 (n.toInt.tmod m.toInt))

/-- Unsigned division, likewise. -/
def unsignedDivide (turn op : Nat) (n : BitVec 64) (m : Word) : Word × Word :=
  let q := n.toNat / m.toNat
  if m = 0 || 2 ^ 32 ≤ q then Config.divOpen turn op n m
  else (BitVec.ofNat 32 q, BitVec.ofNat 32 (n.toNat % m.toNat))

/-- The divider started: results, 17 free clocks, and the denominator latch. -/
def MathUnit.divided (m : MathUnit) (r : Word × Word) (denominator : Word) : MathUnit :=
  { m with divQuotient := r.1, divRemainder := r.2, divLeft := 18, divDenominator := denominator }

/-- DIV32 and DIV32U leave the denominator latch open (U50). -/
def execDiv32 (f : DualL) (s : State) : Out :=
  s.startL f MathUnit.divLeft fun o s1 =>
    s1.cog.math.divided (signedDivide s1.turn 0 (o.dv.signExtend 64) o.sv) (Config.freeWord s1.turn 3)

def execDiv32u (f : DualL) (s : State) : Out :=
  s.startL f MathUnit.divLeft fun o s1 =>
    s1.cog.math.divided (unsignedDivide s1.turn 1 (o.dv.setWidth 64) o.sv) (Config.freeWord s1.turn 3)

def execDiv64d (f : SingleL) (s : State) : Out :=
  s.start1 f MathUnit.divLeft fun v s1 => { s1.cog.math with divDenominator := v }

/-- DIV64 and DIV64U: S is the high long; the latch stays (R732). -/
def execDiv64 (f : DualL) (s : State) : Out :=
  s.startL f MathUnit.divLeft fun o s1 =>
    let m := s1.cog.math
    m.divided (signedDivide s1.turn 2 (o.sv ++ o.dv) m.divDenominator) m.divDenominator

def execDiv64u (f : DualL) (s : State) : Out :=
  s.startL f MathUnit.divLeft fun o s1 =>
    let m := s1.cog.math
    m.divided (unsignedDivide s1.turn 3 (o.sv ++ o.dv) m.divDenominator) m.divDenominator

/-- The quotient of FRAC; any value where D is not below S (R734, U49). -/
def fraction (turn : Nat) (d s : Word) : Word :=
  if d.toNat < s.toNat then BitVec.ofNat 32 (d.toNat * 2 ^ 32 / s.toNat) else (Config.divOpen turn 4 (d.setWidth 64) s).1

/-- FRAC leaves remainder and denominator open (U50). -/
def execFrac (f : DualL) (s : State) : Out :=
  s.startL f MathUnit.divLeft fun o s1 =>
    s1.cog.math.divided (fraction s1.turn o.dv o.sv, Config.freeWord s1.turn 4) (Config.freeWord s1.turn 3)

def execGetdivq (f : SingleZC) (s : State) : Out := s.readResult f MathUnit.divLeft MathUnit.divQuotient
def execGetdivr (f : SingleZC) (s : State) : Out := s.readResult f MathUnit.divLeft MathUnit.divRemainder

/-! ### Square rooter (R737 to R740) -/

/-- The integer root, bit by bit from bit `k - 1` down. -/
def rootFrom (v r : Nat) : Nat → Nat
  | 0 => r
  | k + 1 => if (r + 2 ^ k) * (r + 2 ^ k) ≤ v then rootFrom v (r + 2 ^ k) k else rootFrom v r k

/-- The floor of the square root of a number below 2^64. -/
def floorRoot (v : Nat) : Nat := rootFrom v 0 32

/-- The result: exact for a square, else the floor or one more, which of them is open (R737, U51); below `2 ^ width`. -/
def squareRoot (turn : Nat) (v : BitVec 64) (width : Nat) : Word :=
  let r := floorRoot v.toNat
  let up := decide (r * r ≠ v.toNat) && decide (r + 1 < 2 ^ width) && Config.sqrtUp turn v
  BitVec.ofNat 32 (if up then r + 1 else r)

def execSqrt32 (f : SingleL) (s : State) : Out :=
  s.start1 f MathUnit.sqrtLeft fun v s1 =>
    { s1.cog.math with sqrtResult := squareRoot s1.turn (v.setWidth 64) 16, sqrtLeft := 17 }

/-- SQRT64: S is the high long. -/
def execSqrt64 (f : DualL) (s : State) : Out :=
  s.startL f MathUnit.sqrtLeft fun o s1 =>
    { s1.cog.math with sqrtResult := squareRoot s1.turn (o.sv ++ o.dv) 32, sqrtLeft := 33 }

def execGetsqrt (f : SingleZC) (s : State) : Out := s.readResult f MathUnit.sqrtLeft MathUnit.sqrtResult

/-! ### CORDIC (R741 to R752) -/

/-- QLOG_FN and QEXP_FN (R744 to R746). -/
def logOf (qi : BitVec 6) (v : Word) : Word := if qi = 0 then (@Config.logExp ⟨.witness⟩).log v else Config.qlog qi v
def expOf (qi : BitVec 6) (v : Word) : Word := if qi = 0 then (@Config.logExp ⟨.witness⟩).exp v else Config.qexp qi v

/-- The steps of `h` and `j`, and of `k` (R749). -/
def stepH (i : Nat) : Nat := if i ≤ 3 then 0 else if i ≤ 12 then 1 else 2
def stepK (mag : Nat) : Nat := if mag ≤ 1 then 0 else if mag ≤ 10 then 1 else 2

/-- The magnitude of a signed 30-bit operand. -/
def abs30 (v : Word) : Nat := (bits v 0 30).toInt.natAbs

/-- mag(abs(D) | abs(S)): the position of the highest 1 (R749). DESIGN CHOICE: 0 where both operands are 0 and there is
none (log 40). -/
def magOf (d s : Word) : Nat := Nat.log2 (abs30 d ||| abs30 s)

/-- Free clocks of QLOG and QEXP (R749). -/
def logClocks (qi : BitVec 6) : Nat :=
  let i := (bits qi 0 5).toNat
  if i = 0 then 35 else 2 + i + stepH i

/-- Free clocks of the circular operations with register or plain operands (R749). -/
def circularClocks (qi : BitVec 6) (d s : Word) : Nat :=
  let i := (bits qi 0 5).toNat
  let m := magOf d s
  if qi.getLsbD 5 then (if i = 0 then 4 + m + stepK m else 2 + i + stepH i)
  else if i = 0 then 5 + m else 3 + i

/-- Free clocks of QSINCOS with an immediate amplitude `n`; `extra` stands for the `j` that R749 does not give. -/
def sincosClocks (qi : BitVec 6) (n extra : Nat) : Nat :=
  let i := (bits qi 0 5).toNat
  if qi.getLsbD 5 then
    (if i = 0 then 1 + n + (if n = 0 || 31 < n then extra % 3 else stepH n) else 1 + i + stepH i)
  else if i = 0 then 2 + n else 2 + i

/-- The amplitude of the results of QSINCOS with the immediate `n` from $00 to $7F, rounded up (R748). -/
def sincosBound (n : Nat) : Nat :=
  let part := if n < 0x20 then 256 else if n < 0x40 then 255 else if n < 0x60 then 224 else 192
  (2 ^ (n % 32) * part + 511) / 512

/-- A signed result kept within plus and minus `bound`. DESIGN CHOICE: X and Y fill the 32 bits of QX and QY as signed
numbers, which R747 leaves open (log 40). -/
def within (bound : Nat) (r : Word) : Word :=
  if (bound : Int) < r.toInt then BitVec.ofNat 32 bound
  else if r.toInt < -(bound : Int) then -(BitVec.ofNat 32 bound) else r

/-- QSINCOS_FN with an immediate amplitude: in trigonometric mode the results stay within the amplitude (R748). -/
def sincosImm (qi : BitVec 6) (angle n : Word) : Word × Word :=
  let r := Config.qsincos qi angle n true
  if qi.getLsbD 5 then r else (within (sincosBound n.toNat) r.1, within (sincosBound n.toNat) r.2)

/-- The CORDIC results, and the clocks until they can be read. -/
def MathUnit.cordic (m : MathUnit) (x y z : Word) (clocks : Nat) : MathUnit :=
  { m with qx := x, qy := y, qz := z, qzPreset := false, qLeft := clocks + 1 }

/-- A result register the spec does not name for an operation (R741). -/
def State.openQ (s : State) (n : Nat) : Word := Config.freeWord s.turn (8 + n)

def execSetqi (f : SingleL) (s : State) : Out :=
  s.start1 f MathUnit.qLeft fun v s1 => { s1.cog.math with qi := bits v 0 6 }

def execSetqz (f : SingleL) (s : State) : Out :=
  s.start1 f MathUnit.qLeft fun v s1 => { s1.cog.math with qz := v, qzPreset := true }

def execQlog (f : SingleL) (s : State) : Out :=
  s.start1 f MathUnit.qLeft fun v s1 =>
    let m := s1.cog.math
    m.cordic (s1.openQ 0) (s1.openQ 1) (logOf m.qi v) (logClocks m.qi)

def execQexp (f : SingleL) (s : State) : Out :=
  s.start1 f MathUnit.qLeft fun v s1 =>
    let m := s1.cog.math
    m.cordic (s1.openQ 0) (s1.openQ 1) (expOf m.qi v) (logClocks m.qi)

/-- QSINCOS. An immediate above $7F, or one that AUGS extends, is not described: its results are open (R748). -/
def execQsincos (f : DualL) (s : State) : Out :=
  let extended := s.task.augs.isSome
  s.startL f MathUnit.qLeft fun o s1 =>
    let m := s1.cog.math
    let r :=
      if !f.i then Config.qsincos m.qi o.dv (o.sv &&& 0x3FFFFFFF#32) false
      else if extended || decide (0x7F < o.sv.toNat) then (s1.openQ 0, s1.openQ 1)
      else sincosImm m.qi o.dv o.sv
    let clocks := if f.i then sincosClocks m.qi o.sv.toNat (Config.freeIndex s1.turn 2) else circularClocks m.qi o.dv o.sv
    m.cordic r.1 r.2 (s1.openQ 2) clocks

def execQarctan (f : DualL) (s : State) : Out :=
  s.startL f MathUnit.qLeft fun o s1 =>
    let m := s1.cog.math
    let r := Config.qarctan m.qi (bits o.dv 0 30) (bits o.sv 0 30)
    m.cordic r.1 (s1.openQ 1) r.2 (circularClocks m.qi o.dv o.sv)

/-- QROTATE: without its own SETQZ just before, the results are open (R743, U53). -/
def execQrotate (f : DualL) (s : State) : Out :=
  s.startL f MathUnit.qLeft fun o s1 =>
    let m := s1.cog.math
    let r :=
      if m.qzPreset then Config.qrotate m.qi (bits o.dv 0 30) (bits o.sv 0 30) m.qz else (s1.openQ 0, s1.openQ 1)
    m.cordic r.1 r.2 (s1.openQ 2) (circularClocks m.qi o.dv o.sv)

def execGetqx (f : SingleZC) (s : State) : Out := s.readResult f MathUnit.qLeft MathUnit.qx
def execGetqy (f : SingleZC) (s : State) : Out := s.readResult f MathUnit.qLeft MathUnit.qy
def execGetqz (f : SingleZC) (s : State) : Out := s.readResult f MathUnit.qLeft MathUnit.qz

/-! ### Accumulators (R760 to R770) -/

/-- The signed product of the low 20 bits (R761). -/
def macProduct (d s : Word) : BitVec 64 := (bits d 0 20).signExtend 64 * (bits s 0 20).signExtend 64

/-- An accumulator instruction with two operands. -/
def State.accL (s : State) (f : DualL) (g : Word → Word → MathUnit → MathUnit) : Out :=
  s.configLS f fun d v c => c.withMath (g d v c.math)

def execMaca (f : DualL) (s : State) : Out :=
  s.accL f fun d v m => { m with acca := m.acca + macProduct d v, macLeft := 3 }
def execMacb (f : DualL) (s : State) : Out :=
  s.accL f fun d v m => { m with accb := m.accb + macProduct d v, macLeft := 3 }
def execSetacca (f : DualL) (s : State) : Out := s.accL f fun d v m => { m with acca := v ++ d }
def execSetaccb (f : DualL) (s : State) : Out := s.accL f fun d v m => { m with accb := v ++ d }
def execClracca (f : Zero0) (s : State) : Out := s.config0 f fun c => c.withMath { c.math with acca := 0 }
def execClraccb (f : Zero0) (s : State) : Out := s.config0 f fun c => c.withMath { c.math with accb := 0 }
def execClraccs (f : Zero0) (s : State) : Out := s.config0 f fun c => c.withMath { c.math with acca := 0, accb := 0 }

/-- Two clocks after MACA or MACB; until then the pipeline stalls in either mode (R770). -/
def State.afterMac (s : State) (o : Operands) (go : Out) : Out := if s.cog.math.macLeft = 0 then go else s.hold o

/-- SARACCA, SARACCB, SARACCS: shift by the low six bits of D (R768). -/
def State.shiftAcc (s : State) (f : SingleL) (g : Nat → MathUnit → MathUnit) : Out :=
  s.withOperands f.cond (dl f.l f.d) (.raw 0) fun o s1 =>
    s1.afterMac o <| s1.finish (s1.cog.withMath (g (bits o.dv 0 6).toNat s1.cog.math))

def execSaracca (f : SingleL) (s : State) : Out := s.shiftAcc f fun n m => { m with acca := m.acca.sshiftRight n }
def execSaraccb (f : SingleL) (s : State) : Out := s.shiftAcc f fun n m => { m with accb := m.accb.sshiftRight n }
def execSaraccs (f : SingleL) (s : State) : Out :=
  s.shiftAcc f fun n m => { m with acca := m.acca.sshiftRight n, accb := m.accb.sshiftRight n }

/-- GETACAL and its kin; C is open (U34). -/
def State.readAcc (s : State) (f : SingleZC) (value : MathUnit → Word) : Out :=
  s.withOperands f.cond (.reg f.d) (.raw 0) fun o s1 =>
    s1.afterMac o <| s1.putResult o f.wz f.wc (Result.of (value s1.cog.math) (Config.freeBit s1.turn 2))

def execGetacal (f : SingleZC) (s : State) : Out := s.readAcc f fun m => bits m.acca 0 32
def execGetacah (f : SingleZC) (s : State) : Out := s.readAcc f fun m => bits m.acca 32 32
def execGetacbl (f : SingleZC) (s : State) : Out := s.readAcc f fun m => bits m.accb 0 32
def execGetacbh (f : SingleZC) (s : State) : Out := s.readAcc f fun m => bits m.accb 32 32

end Sys2Proof.Machine
end

