-- ==== Sys2Proof/Machine/PinsCtr.lean ====
section
/-!
DEFINITION. Pins, counters, DAC channels, pin transfer, serial transceivers and trace (47_pins_ctr_dac_ser.md).
-/

set_option Elab.async false

namespace Sys2Proof.Machine

open Sys2Proof

/-! ### Pins (R780 to R797) -/

/-- Port and bit of a pin number (R781). -/
def pinPort (p : BitVec 7) : Fin 4 := (bits p 5 2).toFin
def pinBit (p : BitVec 7) : Nat := (bits p 0 5).toNat

/-- The OUT bit of a pin. -/
def Cog.pinOut (c : Cog) (p : BitVec 7) : Bool := (c.ports.out.get (pinPort p)).getLsbD (pinBit p)

/-- OUT and DIR bits of a pin (R780, R792); the last-written-D latch is not affected. -/
def Cog.putPin (c : Cog) (p : BitVec 7) (out dir : Bool) : Cog :=
  let k := pinPort p
  let o := c.ports.out.get k
  let d := c.ports.dir.get k
  { c with ports := { c.ports with out := c.ports.out.set k (setBit o (pinBit p) out),
                                   dir := c.ports.dir.set k (setBit d (pinBit p) dir) } }

/-- A pin instruction: the pin becomes an output with a level made from its OUT bit and the task's flags (R780). -/
def State.drivePin (s : State) (f : SingleL) (level : Bool → Task → Bool) : Out :=
  s.configL f fun v c => c.putPin (bits v 0 7) (level (c.pinOut (bits v 0 7)) c.task) true

/-- OFFP: OUT stays (R782). -/
def execOffp (f : SingleL) (s : State) : Out :=
  s.configL f fun v c => c.putPin (bits v 0 7) (c.pinOut (bits v 0 7)) false
def execNotp (f : SingleL) (s : State) : Out := s.drivePin f fun o _ => !o
def execClrp (f : SingleL) (s : State) : Out := s.drivePin f fun _ _ => false
def execSetp (f : SingleL) (s : State) : Out := s.drivePin f fun _ _ => true
def execSetpc (f : SingleL) (s : State) : Out := s.drivePin f fun _ k => k.c
def execSetpnc (f : SingleL) (s : State) : Out := s.drivePin f fun _ k => !k.c
def execSetpz (f : SingleL) (s : State) : Out := s.drivePin f fun _ k => k.z
def execSetpnz (f : SingleL) (s : State) : Out := s.drivePin f fun _ k => !k.z

/-- GETP and GETNP: Z and C from the level of a pin. -/
def State.readPin (s : State) (f : SingleZCL) (z c : Bool → Bool) : Out :=
  s.withOperands f.cond (dl f.l f.d) (.raw 0) fun o s1 =>
    let b := s1.pinIn s1.cog (bits o.dv 0 7)
    s1.putFlags f.wz f.wc (z b) (c b)

def execGetp (f : SingleZCL) (s : State) : Out := s.readPin f not id
def execGetnp (f : SingleZCL) (s : State) : Out := s.readPin f id not

/-- CFGPINS: a stall of unknown finite length that writes an opaque register (R793, U55, log 31). -/
def execCfgpins (n : BitVec 2) (f : DualL) (s : State) : Out :=
  s.withOperands f.cond (dl f.l f.d) (si f.i f.s) fun o s1 =>
    let q := s1.cog.opq
    s1.finish { s1.cog with opq := { q with pinsD := q.pinsD.set n.toFin o.dv, pinsS := q.pinsS.set n.toFin o.sv } }
      (Config.freeIndex s1.turn 1)

/-- SETPORA to SETPORD: an opaque register (R794, U55, log 31). -/
def State.setPor (s : State) (f : SingleL) (port : Fin 4) : Out :=
  s.configL f fun v c => { c with opq := { c.opq with por := c.opq.por.set port v } }

def execSetpora (f : SingleL) (s : State) : Out := s.setPor f 0
def execSetporb (f : SingleL) (s : State) : Out := s.setPor f 1
def execSetporc (f : SingleL) (s : State) : Out := s.setPor f 2
def execSetpord (f : SingleL) (s : State) : Out := s.setPor f 3

/-! ### Counters (R800 to R819) -/

/-- SETPHSx: in a clock in which the counter itself moves PHS, which of the two wins is open (R804). -/
def Ctr.setPhs (u : Ctr) (v : Word) (coin : Bool) : Ctr :=
  if (u.adding || u.subbing) && coin then u else { u with phs := v }

/-- A register of CTRA, of CTRB, or of both: D goes to CTRB then, S to CTRA (R800). -/
def State.setCtra (s : State) (f : SingleL) (g : Ctr → Word → Bool → Ctr) : Out :=
  s.configL f fun v c => { c with ctra := g c.ctra v (Config.freeBit s.turn 4) }
def State.setCtrb (s : State) (f : SingleL) (g : Ctr → Word → Bool → Ctr) : Out :=
  s.configL f fun v c => { c with ctrb := g c.ctrb v (Config.freeBit s.turn 5) }
def State.setCtrs (s : State) (f : DualL) (g : Ctr → Word → Bool → Ctr) : Out :=
  s.configLS f fun d v c =>
    { c with ctrb := g c.ctrb d (Config.freeBit s.turn 5), ctra := g c.ctra v (Config.freeBit s.turn 4) }

def execSetctra (f : SingleL) (s : State) : Out := s.setCtra f fun u v _ => { u with cfg := v }
def execSetctrb (f : SingleL) (s : State) : Out := s.setCtrb f fun u v _ => { u with cfg := v }
def execSetctrs (f : DualL) (s : State) : Out := s.setCtrs f fun u v _ => { u with cfg := v }
def execSetwava (f : SingleL) (s : State) : Out := s.setCtra f fun u v _ => { u with wav := v }
def execSetwavb (f : SingleL) (s : State) : Out := s.setCtrb f fun u v _ => { u with wav := v }
def execSetwavs (f : DualL) (s : State) : Out := s.setCtrs f fun u v _ => { u with wav := v }
def execSetfrqa (f : SingleL) (s : State) : Out := s.setCtra f fun u v _ => { u with frq := v }
def execSetfrqb (f : SingleL) (s : State) : Out := s.setCtrb f fun u v _ => { u with frq := v }
def execSetfrqs (f : DualL) (s : State) : Out := s.setCtrs f fun u v _ => { u with frq := v }
def execSetphsa (f : SingleL) (s : State) : Out := s.setCtra f Ctr.setPhs
def execSetphsb (f : SingleL) (s : State) : Out := s.setCtrb f Ctr.setPhs
def execSetphss (f : DualL) (s : State) : Out := s.setCtrs f Ctr.setPhs
def execAddphsa (f : SingleL) (s : State) : Out := s.setCtra f fun u v _ => { u with phs := u.phs + v }
def execAddphsb (f : SingleL) (s : State) : Out := s.setCtrb f fun u v _ => { u with phs := u.phs + v }
def execAddphss (f : DualL) (s : State) : Out := s.setCtrs f fun u v _ => { u with phs := u.phs + v }
def execSubphsa (f : SingleL) (s : State) : Out := s.setCtra f fun u v _ => { u with phs := u.phs - v }
def execSubphsb (f : SingleL) (s : State) : Out := s.setCtrb f fun u v _ => { u with phs := u.phs - v }
def execSubphss (f : DualL) (s : State) : Out := s.setCtrs f fun u v _ => { u with phs := u.phs - v }

def execGetphsa (f : SingleZC) (s : State) : Out := s.readInto f (fun s1 => s1.cog.ctra.phs) id
def execGetphsb (f : SingleZC) (s : State) : Out := s.readInto f (fun s1 => s1.cog.ctrb.phs) id
def execGetphza (f : SingleZC) (s : State) : Out :=
  s.readInto f (fun s1 => s1.cog.ctra.phs) fun c => { c with ctra := { c.ctra with phs := 0 } }
def execGetphzb (f : SingleZC) (s : State) : Out :=
  s.readInto f (fun s1 => s1.cog.ctrb.phs) fun c => { c with ctrb := { c.ctrb with phs := 0 } }
def execGetcosa (f : SingleZC) (s : State) : Out := s.readInto f (fun s1 => s1.cog.ctra.cos) id
def execGetcosb (f : SingleZC) (s : State) : Out := s.readInto f (fun s1 => s1.cog.ctrb.cos) id
def execGetsina (f : SingleZC) (s : State) : Out := s.readInto f (fun s1 => s1.cog.ctra.sin) id
def execGetsinb (f : SingleZC) (s : State) : Out := s.readInto f (fun s1 => s1.cog.ctrb.sin) id

/-- Capture and clear the accumulators (R811). -/
def Ctr.capture (u : Ctr) : Ctr := { u with cos := u.cosAcc, sin := u.sinAcc, cosAcc := 0, sinAcc := 0 }

def execCapctra (f : Zero0) (s : State) : Out := s.config0 f fun c => { c with ctra := c.ctra.capture }
def execCapctrb (f : Zero0) (s : State) : Out := s.config0 f fun c => { c with ctrb := c.ctrb.capture }
def execCapctrs (f : Zero0) (s : State) : Out :=
  s.config0 f fun c => { c with ctra := c.ctra.capture, ctrb := c.ctrb.capture }

/-- SYNCTRx: wait for a rollover in this clock (R816). -/
def State.syncCtr (s : State) (f : Zero0) (ctr : Cog → Ctr) : Out :=
  s.conditional f.cond fun o s1 => s1.waitFor o (ctr s1.cog).rolling fun s2 => s2.finish s2.cog

def execSynctra (f : Zero0) (s : State) : Out := s.syncCtr f Cog.ctra
def execSynctrb (f : Zero0) (s : State) : Out := s.syncCtr f Cog.ctrb

/-- POLCTRx: report and clear the rollover (R817, D24). -/
def State.pollCtr (s : State) (f : Zero0ZC) (r : Bool) (clear : Cog → Cog) : Out :=
  s.conditional f.cond fun _ s1 => s1.finish ((clear s1.cog).setFlags f.wz f.wc (!r) r)

def execPolctra (f : Zero0ZC) (s : State) : Out :=
  s.pollCtr f s.cog.ctra.rolled fun c => { c with ctra := { c.ctra with rolled := false } }
def execPolctrb (f : Zero0ZC) (s : State) : Out :=
  s.pollCtr f s.cog.ctrb.rolled fun c => { c with ctrb := { c.ctrb with rolled := false } }

/-! ### DAC channels (R831 to R840) -/

/-- The configuration of one channel (R831). -/
def State.cfgDac (s : State) (f : SingleL) (n : Fin 4) : Out :=
  s.configL f fun v c => { c with dac := { c.dac with cfg := c.dac.cfg.set n (bits v 0 2) } }

def execCfgdac0 (f : SingleL) (s : State) : Out := s.cfgDac f 0
def execCfgdac1 (f : SingleL) (s : State) : Out := s.cfgDac f 1
def execCfgdac2 (f : SingleL) (s : State) : Out := s.cfgDac f 2
def execCfgdac3 (f : SingleL) (s : State) : Out := s.cfgDac f 3
def execCfgdacs (f : SingleL) (s : State) : Out :=
  s.configL f fun v c => { c with dac := { c.dac with cfg := ⟨bits v 0 2, bits v 2 2, bits v 4 2, bits v 6 2⟩ } }

/-- The D operand of SETDAC0 to SETDAC3: a register, or the bare field. -/
def dacD (l : Bool) (f : RegAddr) : DUse := if l then .raw f else .reg f

/-- An 18-bit value from nine bits, in the middle of its step (R836). -/
def dacMid (v : BitVec 9) : BitVec 18 := v ++ 0x100#9

/-- The 18-bit value of SETDACn: a nine-bit constant, or D[31..14]. -/
def dacValue (l : Bool) (v : Word) : BitVec 18 := if l then dacMid (bits v 0 9) else bits v 14 18

/-- SETDAC0 to SETDAC3: the immediate form is the field itself, which a pending AUGD must not meet (R836, U31). -/
def State.setDac (s : State) (f : SingleL) (n : Fin 4) : Out :=
  s.withOperands f.cond (dacD f.l f.d) (.raw 0) fun o s1 =>
    let u := s1.cog.dac
    s1.noAugd f.l <| s1.finish { s1.cog with
      dac := { u with val := u.val.set n (dacValue f.l o.dv), cfg := u.cfg.set n 0 } }

def execSetdac0 (f : SingleL) (s : State) : Out := s.setDac f 0
def execSetdac1 (f : SingleL) (s : State) : Out := s.setDac f 1
def execSetdac2 (f : SingleL) (s : State) : Out := s.setDac f 2
def execSetdac3 (f : SingleL) (s : State) : Out := s.setDac f 3

/-- A DAC value from byte `n` of D (R840). -/
def dacByte (v : Word) (n : Nat) : BitVec 18 := dacMid (bits v (8 * n) 8 ++ 0#1)

/-- SETDACS: of a constant the nine bits of the field count; a pending AUGD is used up (R177, R840). -/
def execSetdacs (f : SingleL) (s : State) : Out :=
  s.configL f fun v c =>
    { c with dac := { c.dac with
        val := if f.l then Quad.all (dacMid (bits v 0 9)) else ⟨dacByte v 0, dacByte v 1, dacByte v 2, dacByte v 3⟩
        cfg := Quad.all 0 } }

/-! ### Pin transfer (R851, R852) -/

/-- SETXFR: the pattern starts again; the two modes from AUX to pins start a clock later. S has no described use. -/
def execSetxfr (f : DualL) (s : State) : Out :=
  s.configLS f fun d _ c =>
    let u : Xfr := { c.xfr with cfg := bits d 0 7, phase := 0, pins := if c.xfr.enabled then c.xfr.pins else 0 }
    { c with xfr := { u with delay := u.usesAux && !u.input } }

/-! ### Serial transceivers (R861 to R866) -/

/-- The transceiver after SETSERx (R861). What becomes of a frame in flight and of buffered data is open. -/
def Ser.configure (u : Ser) (cfg periods : Word) (turn draw : Nat) : Ser :=
  let rx : BitVec 16 := if bits periods 16 16 = 0 then bits periods 0 16 else bits periods 16 16
  { u with
    cfg := cfg, txPeriod := bits periods 0 16, rxPeriod := rx
    txBusy := u.txBusy && Config.freeBit turn draw
    txLeft := if u.txBusy then Config.freeIndex turn draw else u.txLeft
    txData := if u.txBusy then Config.freeWord turn draw else u.txData
    rxPhase := if Config.freeBit turn (draw + 1) then .awaitStop else u.rxPhase
    rxFull := u.rxFull && Config.freeBit turn (draw + 2) }

/-- A transmitter or receiver is enabled with a period of 0 (R860, U57). -/
def Ser.badPeriod (u : Ser) : Bool := (u.txMode != 0 && u.txPeriod == 0) || (u.rxMode != 0 && u.rxPeriod == 0)

/-- Configure a transceiver; a period of 0 on an enabled side is refused (U57). -/
def State.setSer (s : State) (f : DualL) (ser : Cog → Ser) (put : Ser → Cog → Cog) : Out :=
  s.withOperands f.cond (dl f.l f.d) (si f.i f.s) fun o s1 =>
    let u := (ser s1.cog).configure o.dv o.sv s1.turn 4
    if u.badPeriod then .refused .serialPeriod else s1.finish (put u s1.cog)

/-- Can the transmitter take data? Open while it is disabled (R863). -/
def State.txReady (s : State) (u : Ser) : Bool := if u.txMode = 0 then Config.freeBit s.turn 1 else !u.txBusy

/-- SEROUTx: wait until the data is captured, or with WC try once (R863). -/
def State.serOut (s : State) (f : SingleCL) (ser : Cog → Ser) (put : Ser → Cog → Cog) : Out :=
  s.withOperands f.cond (dl f.l f.d) (.raw 0) fun o s1 =>
    let ready := s1.txReady (ser s1.cog)
    let c := if ready then put ((ser s1.cog).capture o.dv) s1.cog else s1.cog
    if f.wc then s1.finish (c.setFlags false true false ready)
    else s1.waitFor o ready fun s2 => s2.finish c

/-- SERINx: wait for data, or with WC try once; then D is open where nothing has come (R865, U57). -/
def State.serIn (s : State) (f : SingleZC) (ser : Cog → Ser) (put : Ser → Cog → Cog) : Out :=
  s.withOperands f.cond (.reg f.d) (.raw 0) fun o s1 =>
    let u := ser s1.cog
    let v := if u.rxFull then u.rxData else Config.freeWord s1.turn 1
    let c := (put { u with rxFull := false } s1.cog).setFlags f.wz f.wc (zOf v) u.rxFull
    if f.wc then s1.finishD c o.d v
    else s1.waitFor o u.rxFull fun s2 => s2.finishD c o.d v

def putSera (u : Ser) (c : Cog) : Cog := { c with sera := u }
def putSerb (u : Ser) (c : Cog) : Cog := { c with serb := u }

def execSetsera (f : DualL) (s : State) : Out := s.setSer f Cog.sera putSera
def execSetserb (f : DualL) (s : State) : Out := s.setSer f Cog.serb putSerb
def execSerouta (f : SingleCL) (s : State) : Out := s.serOut f Cog.sera putSera
def execSeroutb (f : SingleCL) (s : State) : Out := s.serOut f Cog.serb putSerb
def execSerina (f : SingleZC) (s : State) : Out := s.serIn f Cog.sera putSera
def execSerinb (f : SingleZC) (s : State) : Out := s.serIn f Cog.serb putSerb

/-! ### Trace (R870) -/

def execSetrace (f : SingleL) (s : State) : Out := s.configL f fun v c => { c with trace := bits v 0 4 }

end Sys2Proof.Machine
end

