-- ==== Sys2Proof/Machine/RemapXch.lean ====
section
/-!
DEFINITION. Register remapping and the port D exchange (49_remap_xch.md).
-/

set_option Elab.async false

namespace Sys2Proof.Machine

open Sys2Proof

/-- SETMAP: the new mapping forms addresses from the third instruction on (R931, R932). -/
def execSetmap (f : SingleL) (s : State) : Out :=
  s.configL f fun v c => { c with remap := { c.remap with map := bits v 0 7 } }

/-- SETXCH: PIND follows on the third clock (R941, R942). -/
def execSetxch (f : SingleL) (s : State) : Out :=
  s.configL f fun v c => { c with ports := { c.ports with xch := v } }

end Sys2Proof.Machine
end

