-- ==== Sys2Proof/Machine/TaskRep.lean ====
section
/-!
DEFINITION. Tasks, the block repeater, CNT and the waiting instructions (43_tasks_repeat_counter.md).
-/

set_option Elab.async false

namespace Sys2Proof.Machine

open Sys2Proof

/-! ### Tasks (R392 to R395) -/

/-- The number of a task as a word. -/
def taskWord (t : Fin 4) : Word := (BitVec.ofFin t : BitVec 2).setWidth 32

def execTaskid (f : SingleZC) (s : State) : Out := s.readInto f (fun s1 => taskWord s1.cog.cur) id

/-- SETTASK: TASK now, its time slots from the fifth instruction cycle on (R394). -/
def execSettask (f : SingleL) (s : State) : Out :=
  s.configL f fun v c => { c with sched := { c.sched with task := v, q5 := some v } }

def execJmptask (f : DualL) (s : State) : Out :=
  s.withOperands f.cond (dl f.l f.d) (si f.i f.s) fun o s1 => s1.jumpTasks (bits o.dv 0 4) (bits o.sv 0 16)

/-! ### Repeat blocks (R401 to R403) -/

/-- Load the task's repeater: the block starts `spacers + 1` instructions on and has `i + 1` instructions. Among the
instructions behind a delayed branch it is refused (U43). -/
def State.startRepeat (s : State) (spacers : Nat) (i : BitVec 6) (left : Passes) : Out :=
  let c := s.cog
  let k := c.task
  let first : Addr := k.pc + BitVec.ofNat 16 (spacers + 1)
  if k.dlyCount ≠ 0 then .refused .delaySlot
  else s.finish (c.setTask { k with rep := ⟨true, first, first + i.setWidth 16, left⟩ })

/-- REPS: no condition; its fields are constants (R401). -/
def execReps (n : BitVec 16) (i : BitVec 6) (s : State) : Out :=
  s.noAugs true <| s.startRepeat 1 i (.count n.toNat)

/-- REPD D/#n,#i: D + 1 passes (R402); a count above $FFFF is refused (U40). -/
def execRepd (i : BitVec 6) (f : SingleL) (s : State) : Out :=
  s.withOperands f.cond (dl f.l f.d) (.raw 0) fun o s1 =>
    if 0xFFFF < o.dv.toNat then .refused .repeatCount else s1.startRepeat 3 i (.count o.dv.toNat)

/-- REPD #i: until a branch (R403). -/
def execRepdInf (i : BitVec 6) (f : Zero0) (s : State) : Out :=
  s.conditional f.cond fun _ s1 => s1.startRepeat 3 i .infinite

/-! ### CNT (R410 to R417) -/

/-- CNT[31..0], and CNT[63..32] one clock earlier. -/
def State.cntLow (s : State) : Word := bits s.hub.cnt 0 32
def State.cntHigh (s : State) : Word := bits s.hub.cntPrev 32 32

/-- Read a counter long into D, C = MSB. -/
def State.readCount (s : State) (f : SingleZC) (value : State → Word) : Out :=
  s.withOperands f.cond (.reg f.d) (.raw 0) fun o s1 => s1.putResult o f.wz f.wc (Result.of (value s1) (value s1).msb)

def execGetcnt (f : SingleZC) (s : State) : Out := s.readCount f State.cntLow
def execGetcntx (f : SingleZC) (s : State) : Out := s.readCount f State.cntHigh

/-- Is the chain armed for this task and this clock (R414)? -/
def Cog.chained (c : Cog) : Bool := decide (c.chain.left = 1) && decide (c.chain.task = c.cur)

/-- The difference SUBCNT and CMPCNT form (R413). -/
def State.countDiff (s : State) (v : Word) : Word :=
  if s.cog.chained then s.cntHigh - v - (BitVec.ofBool s.cog.chain.borrow).setWidth 32 else s.cntLow - v

/-- The chain afterwards: used up, or armed for the next clock (R414). -/
def State.nextChain (s : State) (v : Word) : Chain :=
  if s.cog.chained then { s.cog.chain with left := 0 } else ⟨2, s.cog.cur, decide (s.cntLow.toNat < v.toNat)⟩

def execSubcnt (f : SingleZC) (s : State) : Out :=
  s.withOperands f.cond (.reg f.d) (.raw 0) fun o s1 =>
    let r := s1.countDiff o.dv
    let c := { s1.cog with chain := s1.nextChain o.dv }
    s1.finishD (c.setFlags f.wz f.wc (zOf r) (!r.msb)) o.d r

def execCmpcnt (f : SingleCL) (s : State) : Out :=
  s.withOperands f.cond (dl f.l f.d) (.raw 0) fun o s1 =>
    let c := { s1.cog with chain := s1.nextChain o.dv }
    s1.finish (c.setFlags false f.wc false (!(s1.countDiff o.dv).msb))

/-- PASSCNT: a jump to itself in either mode until CNT has passed D (R416). -/
def execPasscnt (f : SingleL) (s : State) : Out :=
  s.withOperands f.cond (dl f.l f.d) (.raw 0) fun o s1 =>
    if (s1.cntLow - o.dv).msb then s1.branch s1.cog s1.task.pc else s1.fallThrough s1.cog

/-- WAIT: so many clocks in stage 4, at least one (R417). -/
def execWait (f : SingleL) (s : State) : Out :=
  s.withOperands f.cond (dl f.l f.d) (.raw 0) fun o s1 => s1.finish s1.cog (o.dv.toNat - 1)

/-! ### Waiting for CNT and pins (R418 to R424): the whole cog waits -/

def execWaitcnt (f : DualP) (s : State) : Out :=
  s.withOperands f.cond (.reg f.d) (si f.i f.s) fun o s1 =>
    if s1.cntLow = o.dv then s1.finishD s1.cog o.d (o.dv + o.sv) else s1.hold o

/-- WAITCNT WC: the high long of the target is the last-written D (R419). -/
def execWaitcntWc (f : DualP) (s : State) : Out :=
  s.withOperands f.cond (.reg f.d) (si f.i f.s) fun o s1 =>
    if s1.hub.cnt = s1.cog.lastD ++ o.dv then
      s1.finishD (s1.cog.setFlags false true false (carryAdd o.dv o.sv false)) o.d (o.dv + o.sv)
    else s1.hold o

/-- Has the timeout target of a WC form come (R420)? -/
def State.timedOut (s : State) (wc : Bool) : Bool := wc && s.cntLow == s.cog.lastD

/-- The end of a pin wait: C tells a timeout; it is open when pins and timeout come in one clock (U42). -/
def State.endWait (s : State) (wc met timeout : Bool) : Out :=
  s.finish (s.cog.setFlags false wc false (if met && timeout then Config.freeBit s.turn 1 else timeout))

/-- WAITPEQ and WAITPNE: wait for a test of the masked port against D (R420, R421). -/
def State.waitPort (s : State) (n : BitVec 2) (f : DualC) (test : Word → Word → Bool) : Out :=
  s.withOperands f.cond (.reg f.d) (si f.i f.s) fun o s1 =>
    let met := test (s1.pinLong s1.cog n.toFin &&& o.sv) o.dv
    let timeout := s1.timedOut f.wc
    if met || timeout then s1.endWait f.wc met timeout else s1.hold o

def execWaitpeq (n : BitVec 2) (f : DualC) (s : State) : Out := s.waitPort n f fun p d => p == d
def execWaitpne (n : BitVec 2) (f : DualC) (s : State) : Out := s.waitPort n f fun p d => p != d

/-- WAITPX, WAITPR, WAITPF: wait for an edge of a pin; the level before the first look is open (R422, log 52). -/
def State.waitEdge (s : State) (f : SingleCL) (edge : Bool → Bool → Bool) : Out :=
  s.withOperands f.cond (dl f.l f.d) (.raw 0) fun o s1 =>
    let now := s1.pinIn s1.cog (bits o.dv 0 7)
    let before := match s1.cog.pipe.waiting with | some w => w.pin | none => Config.freeBit s1.turn 3
    let met := edge before now
    let timeout := s1.timedOut f.wc
    if met || timeout then s1.endWait f.wc met timeout else s1.hold o now

def execWaitpx (f : SingleCL) (s : State) : Out := s.waitEdge f fun before now => before != now
def execWaitpr (f : SingleCL) (s : State) : Out := s.waitEdge f fun before now => !before && now
def execWaitpf (f : SingleCL) (s : State) : Out := s.waitEdge f fun before now => before && !now

end Sys2Proof.Machine
end

