-- ==== Sys2Proof/Machine/VideoPix.lean ====
section
/-!
DEFINITION. Video generator, texture mapper and pixel mixer (48_video_pix.md).
-/

set_option Elab.async false

namespace Sys2Proof.Machine

open Sys2Proof

/-! ### Video generator (R881 to R888) -/

def execSetvid (f : SingleL) (s : State) : Out := s.configL f fun v c => { c with vid := { c.vid with cfg := bits v 0 7 } }
def execSetvidy (f : SingleL) (s : State) : Out := s.configL f fun v c => { c with vid := { c.vid with y := v } }
def execSetvidi (f : SingleL) (s : State) : Out := s.configL f fun v c => { c with vid := { c.vid with i := v } }
def execSetvidq (f : SingleL) (s : State) : Out := s.configL f fun v c => { c with vid := { c.vid with q := v } }

/-- VID has room for another command; open while it is off or has no dot clock (R887, R893). -/
def State.vidReady (s : State) : Bool :=
  if s.cog.vid.on && s.cog.ctra.pll then s.cog.vid.next.isNone else Config.freeBit s.turn 1

/-- Hand a command to VID when it has room. DESIGN CHOICE: while VID is off or has no dot clock and a command is accepted,
it takes the place of a buffered one (log 37). -/
def State.giveVid (s : State) (o : Operands) : Out :=
  s.waitFor o s.vidReady fun s2 =>
    s2.finish { s2.cog with vid := { s2.cog.vid with next := some (o.dv, o.sv) } }

def execWaitvid (f : DualP) (s : State) : Out :=
  s.withOperands f.cond (.reg f.d) (si f.i f.s) fun o s1 => s1.giveVid o

/-- The form with a 12-bit immediate D, which a pending AUGD must not meet (U31). -/
def execWaitvidImm (n : BitVec 12) (f : DualS) (s : State) : Out :=
  s.withOperands f.cond (.raw 0) (si f.i f.s) fun o s1 =>
    s1.noAugd true <| s1.giveVid { o with dv := n.setWidth 32 }

def execPolvid (f : Zero0ZC) (s : State) : Out :=
  s.conditional f.cond fun _ s1 => s1.putFlags f.wz f.wc (!s1.vidReady) s1.vidReady

/-! ### Pixels -/

/-- A component of a pixel: 3 is A, 2 is R, 1 is G, 0 is B. -/
def comp (p : Word) (k : Nat) : Nat := (bits p (8 * k) 8).toNat

/-- A pixel from its components A, R, G, B, each below 256. -/
def pixel (a r g b : Nat) : Word :=
  BitVec.ofNat 8 a ++ (BitVec.ofNat 8 r ++ (BitVec.ofNat 8 g ++ BitVec.ofNat 8 b))

/-- 1:5:5:5 to 8:8:8:8 (R917). -/
def expandPixel (w : BitVec 16) : Word :=
  let five (lo : Nat) : Byte := bits w lo 5 ++ bits w (lo + 2) 3
  (if w.msb then 0xFF#8 else 0#8) ++ (five 10 ++ (five 5 ++ five 0))

/-- 8:8:8:8 to 1:5:5:5 (R917). -/
def packPixel (p : Word) : BitVec 16 :=
  BitVec.ofBool (bits p 24 8 != 0) ++ (bits p 19 5 ++ (bits p 11 5 ++ bits p 3 5))

/-! ### Pixel mixer (R915 to R922) -/

/-- What the D and S components number `k` are multiplied by, given both pixels. -/
abbrev MixTerms := (dpix spix : Word) → (k : Nat) → Nat × Nat

/-- One output component: sum of products, rounded up by 255, clamped (R915). -/
def mixComp (d s dx sx : Nat) : Nat := min 255 ((d * dx + s * sx + 255) / 256)

/-- The mix function (R916). -/
def mixPixels (t : MixTerms) (d s : Word) : Word :=
  let out (k : Nat) : Nat := mixComp (comp d k) (comp s k) (t d s k).1 (t d s k).2
  pixel (out 3) (out 2) (out 1) (out 0)

/-- A colour term by its three-bit code: `fixed` is DCB or SCB, `other` the other pixel's own component (R915). -/
def colourTerm (code : BitVec 3) (d s : Word) (fixed : Byte) (other : Nat) : Nat :=
  match code.toNat with
  | 0 => 0
  | 1 => 0xFF
  | 2 => comp s 3
  | 3 => 255 - comp s 3
  | 4 => comp d 3
  | 5 => 255 - comp d 3
  | 6 => fixed.toNat
  | _ => other

/-- The terms SETMIX selects (R915). -/
def Mix.terms (m : Mix) : MixTerms := fun d s k =>
  if k = 3 then (if m.m.getLsbD 7 then comp s 3 else m.dab.toNat, if m.m.getLsbD 3 then comp d 3 else m.sab.toNat)
  else (colourTerm (bits m.m 4 3) d s m.dcb (comp s k), colourTerm (bits m.m 0 3) d s m.scb (comp d k))

def addTerms : MixTerms := fun _ _ _ => (0xFF, 0xFF)
def mulTerms : MixTerms := fun _ s k => (comp s k, 0)
def blendTerms : MixTerms := fun _ s _ => (255 - comp s 3, comp s 3)

/-- Word mode (R917). -/
def Mix.wordMode (m : Mix) : Bool := m.m.getLsbD 8

/-- The mixed D in word mode: the low word is mixed and the words are swapped (R917). -/
def mixWord (t : MixTerms) (d spix : Word) : Word := packPixel (mixPixels t (expandPixel (bits d 0 16)) spix) ++ bits d 16 16

/-- D mixed with the S value: long mode, or word mode with the word of S that is next (R916, R917). -/
def Mix.blend (m : Mix) (t : MixTerms) (d s : Word) : Word :=
  if m.wordMode then mixWord t d (expandPixel (if m.sel then bits s 16 16 else bits s 0 16)) else mixPixels t d s

/-- Word-mode operations alternate between the words of S (R917). -/
def Mix.step (m : Mix) : Mix := if m.wordMode then { m with sel := !m.sel } else m

/-- The shape of the four mix instructions, two clocks each (R923). -/
def State.mixOp (s : State) (f : DualP) (terms : Mix → MixTerms) : Out :=
  s.withOperands f.cond (.reg f.d) (si f.i f.s) fun o s1 =>
    let m := s1.cog.mix
    s1.finishD { s1.cog with mix := m.step } o.d (m.blend (terms m) o.dv o.sv) 1

def execAddpix (f : DualP) (s : State) : Out := s.mixOp f fun _ => addTerms
def execMulpix (f : DualP) (s : State) : Out := s.mixOp f fun _ => mulTerms
def execBlnpix (f : DualP) (s : State) : Out := s.mixOp f fun _ => blendTerms
def execMixpix (f : DualP) (s : State) : Out := s.mixOp f Mix.terms

def execSetmix (f : DualL) (s : State) : Out :=
  s.configLS f fun d v c =>
    { c with mix := { m := bits d 0 9, dab := bits v 24 8, dcb := bits v 16 8, sab := bits v 8 8, scb := bits v 0 8,
                      sel := false } }

/-! ### Texture mapper (R901 to R908) -/

/-- A parameter and its delta from the words of an operand (R902). -/
def pairOf (v : Word) : PixPair := ⟨bits v 16 16, bits v 0 16⟩

def execSetpix (f : SingleL) (s : State) : Out := s.configL f fun v c => { c with pix := { c.pix with cfg := v } }
def execSetpixz (f : SingleL) (s : State) : Out := s.configL f fun v c => { c with pix := { c.pix with z := pairOf v } }
def execSetpixu (f : SingleL) (s : State) : Out := s.configL f fun v c => { c with pix := { c.pix with u := pairOf v } }
def execSetpixv (f : SingleL) (s : State) : Out := s.configL f fun v c => { c with pix := { c.pix with v := pairOf v } }
def execSetpixa (f : SingleL) (s : State) : Out := s.configL f fun v c => { c with pix := { c.pix with a := pairOf v } }
def execSetpixr (f : SingleL) (s : State) : Out := s.configL f fun v c => { c with pix := { c.pix with r := pairOf v } }
def execSetpixg (f : SingleL) (s : State) : Out := s.configL f fun v c => { c with pix := { c.pix with g := pairOf v } }
def execSetpixb (f : SingleL) (s : State) : Out := s.configL f fun v c => { c with pix := { c.pix with b := pairOf v } }

/-- SETPIXW: an opaque setting, after which every GETPIX result is open (R904, log 31). -/
def execSetpixw (f : Zero0) (s : State) : Out := s.config0 f fun c => { c with opq := { c.opq with pixw := true } }

/-- A parameter after its delta (R907). -/
def PixPair.step (p : PixPair) : PixPair := { p with value := p.value + p.delta }

/-- All seven parameters after a GETPIX. -/
def Pix.step (p : Pix) : Pix :=
  { p with z := p.z.step, u := p.u.step, v := p.v.step, a := p.a.step, r := p.r.step, g := p.g.step, b := p.b.step }

/-- The top byte of a parameter. -/
def PixPair.top (p : PixPair) : Nat := (bits p.value 8 8).toNat

/-- A coordinate under the perspective divisor (R907). -/
def Pix.coord (p : Pix) (q : PixPair) : Nat := q.value.toNat / (256 - p.z.top) % 256

/-- The bit offset of the texture pixel from the texture's first register (R907). -/
def Pix.offset (p : Pix) : Nat :=
  let w := (bits p.cfg 29 3).toNat
  let h := (bits p.cfg 26 3).toNat
  let tx := p.coord p.u / 2 ^ (8 - w)
  let ty := p.coord p.v / 2 ^ (8 - h)
  (ty * 2 ^ w + tx) * 2 ^ (bits p.cfg 24 2).toNat

/-- The register that holds it. -/
def Pix.register (p : Pix) : Nat := (bits p.cfg 0 9).toNat + p.offset / 32

/-- Is horizontal or vertical mirroring on? The location is open then (R905, U58). -/
def Pix.mirrored (p : Pix) : Bool := bits p.cfg 21 2 != 0

/-- The texture pixel, at most eight bits, from register RAM (R907). DESIGN CHOICE: register remapping does not apply to
this read, which the spec leaves open, and it sees register RAM as it stands when GETPIX executes, with what the two
instructions just ahead wrote, although it is made in stage 2 (R907, R1001, log 29). -/
def Pix.texel (p : Pix) (ram : Sparse Word) (free : Word) : Nat :=
  let n := 2 ^ (bits p.cfg 24 2).toNat
  if p.mirrored then free.toNat % 2 ^ n else (ram.read zeroes p.register).toNat / 2 ^ (p.offset % 32) % 2 ^ n

/-- The colour of a texture pixel: a long of AUX, or a 1:5:5:5 word whose place the spec does not give (R908, U58). -/
def Pix.colour (p : Pix) (aux : Sparse Word) (texel : Nat) (free : Word) : Word :=
  if p.cfg.getLsbD 23 then expandPixel (bits free 0 16) else auxRead aux (bits p.cfg 9 8 + BitVec.ofNat 8 texel)

/-- The colour scaled by the four scalers (R908). -/
def Pix.scale (p : Pix) (t : Word) : Word :=
  let one (k : Nat) (q : PixPair) : Nat := (comp t k * q.top + 255) / 256
  pixel (one 3 p.a) (one 2 p.r) (one 1 p.g) (one 0 p.b)

/-- The preparation GETPIX needs: single-task mode, and two instructions of three clocks just before (R906, U30). -/
def Cog.pixPrepared (c : Cog) : Bool := !c.multiTask && decide (3 ≤ c.pipe.took1) && decide (3 ≤ c.pipe.took2)

/-- GETPIX (R906): texel lookup, scaling, mixing into D, parameter updates; three clocks. With a condition other than
always, unless D is indirect and it has none, it is refused whether or not the condition holds (R174, U30, log 22). It
reads AUX (R853, U20). After SETPIXW the results are open (R904, log 31); in word mode, whether the S word selector
toggles is open (R917, U58). -/
def execGetpix (f : SingleZC) (s : State) : Out :=
  if f.cond != 15 && !isWindow f.d then .refused .pixUnprepared
  else s.withOperands f.cond (.reg f.d) (.raw 0) fun o s1 =>
    let c := s1.cog
    let p := c.pix
    if !c.pixPrepared then .refused .pixUnprepared
    else if !p.mirrored && decide (0x1F2 ≤ p.register) then .refused .texturePastRam
    else s1.auxFree <|
      let t := p.colour c.aux (p.texel c.ram (Config.freeWord s1.turn 1)) (Config.freeWord s1.turn 2)
      let px := p.scale t
      let m := c.mix
      let mixed := if m.wordMode then mixWord m.terms o.dv px else mixPixels m.terms o.dv px
      let r := if c.opq.pixw then Config.freeWord s1.turn 3 else mixed
      let flagC := if c.opq.pixw then Config.freeBit s1.turn 2 else bits px 24 8 != 0
      let sel := if m.wordMode && Config.freeBit s1.turn 1 then !m.sel else m.sel
      s1.finishD ({ c with pix := p.step, mix := { m with sel := sel } }.setFlags f.wz f.wc (zOf r) flagC) o.d r 2

end Sys2Proof.Machine
end

