-- ==== Sys2Proof/Machine/Dispatch.lean ====
section
/-!
DEFINITION. The meaning of every instruction, one arm each, in the order of Instr.
-/

namespace Sys2Proof.Machine

open Sys2Proof

def exec (i : Instr) (s : State) : Host.Outcome State Fault Refusal :=
  match i with
  | .rdbyte f => Sys2Proof.Machine.execRdbyte f s
  | .rdbytec f => Sys2Proof.Machine.execRdbytec f s
  | .rdword f => Sys2Proof.Machine.execRdword f s
  | .rdwordc f => Sys2Proof.Machine.execRdwordc f s
  | .rdlong f => Sys2Proof.Machine.execRdlong f s
  | .rdlongc f => Sys2Proof.Machine.execRdlongc f s
  | .rdaux f => Sys2Proof.Machine.execRdaux f s
  | .rdauxr f => Sys2Proof.Machine.execRdauxr f s
  | .isob f => Sys2Proof.Machine.execIsob f s
  | .notb f => Sys2Proof.Machine.execNotb f s
  | .clrb f => Sys2Proof.Machine.execClrb f s
  | .setb f => Sys2Proof.Machine.execSetb f s
  | .setbc f => Sys2Proof.Machine.execSetbc f s
  | .setbnc f => Sys2Proof.Machine.execSetbnc f s
  | .setbz f => Sys2Proof.Machine.execSetbz f s
  | .setbnz f => Sys2Proof.Machine.execSetbnz f s
  | .andn f => Sys2Proof.Machine.execAndn f s
  | .and f => Sys2Proof.Machine.execAnd f s
  | .or f => Sys2Proof.Machine.execOr f s
  | .xor f => Sys2Proof.Machine.execXor f s
  | .muxc f => Sys2Proof.Machine.execMuxc f s
  | .muxnc f => Sys2Proof.Machine.execMuxnc f s
  | .muxz f => Sys2Proof.Machine.execMuxz f s
  | .muxnz f => Sys2Proof.Machine.execMuxnz f s
  | .ror f => Sys2Proof.Machine.execRor f s
  | .rol f => Sys2Proof.Machine.execRol f s
  | .shr f => Sys2Proof.Machine.execShr f s
  | .shl f => Sys2Proof.Machine.execShl f s
  | .rcr f => Sys2Proof.Machine.execRcr f s
  | .rcl f => Sys2Proof.Machine.execRcl f s
  | .sar f => Sys2Proof.Machine.execSar f s
  | .rev f => Sys2Proof.Machine.execRev f s
  | .mov f => Sys2Proof.Machine.execMov f s
  | .not f => Sys2Proof.Machine.execNot f s
  | .abs f => Sys2Proof.Machine.execAbs f s
  | .neg f => Sys2Proof.Machine.execNeg f s
  | .negc f => Sys2Proof.Machine.execNegc f s
  | .negnc f => Sys2Proof.Machine.execNegnc f s
  | .negz f => Sys2Proof.Machine.execNegz f s
  | .negnz f => Sys2Proof.Machine.execNegnz f s
  | .add f => Sys2Proof.Machine.execAdd f s
  | .sub f => Sys2Proof.Machine.execSub f s
  | .addx f => Sys2Proof.Machine.execAddx f s
  | .subx f => Sys2Proof.Machine.execSubx f s
  | .adds f => Sys2Proof.Machine.execAdds f s
  | .subs f => Sys2Proof.Machine.execSubs f s
  | .addsx f => Sys2Proof.Machine.execAddsx f s
  | .subsx f => Sys2Proof.Machine.execSubsx f s
  | .sumc f => Sys2Proof.Machine.execSumc f s
  | .sumnc f => Sys2Proof.Machine.execSumnc f s
  | .sumz f => Sys2Proof.Machine.execSumz f s
  | .sumnz f => Sys2Proof.Machine.execSumnz f s
  | .min f => Sys2Proof.Machine.execMin f s
  | .max f => Sys2Proof.Machine.execMax f s
  | .mins f => Sys2Proof.Machine.execMins f s
  | .maxs f => Sys2Proof.Machine.execMaxs f s
  | .addabs f => Sys2Proof.Machine.execAddabs f s
  | .subabs f => Sys2Proof.Machine.execSubabs f s
  | .incmod f => Sys2Proof.Machine.execIncmod f s
  | .decmod f => Sys2Proof.Machine.execDecmod f s
  | .cmpsub f => Sys2Proof.Machine.execCmpsub f s
  | .subr f => Sys2Proof.Machine.execSubr f s
  | .mul f => Sys2Proof.Machine.execMul f s
  | .scl f => Sys2Proof.Machine.execScl f s
  | .decod2 f => Sys2Proof.Machine.execDecod2 f s
  | .decod3 f => Sys2Proof.Machine.execDecod3 f s
  | .decod4 f => Sys2Proof.Machine.execDecod4 f s
  | .decod5 f => Sys2Proof.Machine.execDecod5 f s
  | .encod f => Sys2Proof.Machine.execEncod f s
  | .blmask f => Sys2Proof.Machine.execBlmask f s
  | .onecnt f => Sys2Proof.Machine.execOnecnt f s
  | .zercnt f => Sys2Proof.Machine.execZercnt f s
  | .incpat f => Sys2Proof.Machine.execIncpat f s
  | .decpat f => Sys2Proof.Machine.execDecpat f s
  | .splitb f => Sys2Proof.Machine.execSplitb f s
  | .mergeb f => Sys2Proof.Machine.execMergeb f s
  | .splitw f => Sys2Proof.Machine.execSplitw f s
  | .mergew f => Sys2Proof.Machine.execMergew f s
  | .getnib n f => Sys2Proof.Machine.execGetnib n f s
  | .setnib n f => Sys2Proof.Machine.execSetnib n f s
  | .getword n f => Sys2Proof.Machine.execGetword n f s
  | .setword n f => Sys2Proof.Machine.execSetword n f s
  | .setwrds f => Sys2Proof.Machine.execSetwrds f s
  | .rolnib f => Sys2Proof.Machine.execRolnib f s
  | .rolbyte f => Sys2Proof.Machine.execRolbyte f s
  | .rolword f => Sys2Proof.Machine.execRolword f s
  | .sets f => Sys2Proof.Machine.execSets f s
  | .setd f => Sys2Proof.Machine.execSetd f s
  | .setx f => Sys2Proof.Machine.execSetx f s
  | .seti f => Sys2Proof.Machine.execSeti f s
  | .cognew f => Sys2Proof.Machine.execCognew f s
  | .waitcnt f => Sys2Proof.Machine.execWaitcnt f s
  | .waitcntWc f => Sys2Proof.Machine.execWaitcntWc f s
  | .getbyte n f => Sys2Proof.Machine.execGetbyte n f s
  | .setbyte n f => Sys2Proof.Machine.execSetbyte n f s
  | .setbyts f => Sys2Proof.Machine.execSetbyts f s
  | .movbyts f => Sys2Proof.Machine.execMovbyts f s
  | .packrgb f => Sys2Proof.Machine.execPackrgb f s
  | .unpkrgb f => Sys2Proof.Machine.execUnpkrgb f s
  | .addpix f => Sys2Proof.Machine.execAddpix f s
  | .mulpix f => Sys2Proof.Machine.execMulpix f s
  | .blnpix f => Sys2Proof.Machine.execBlnpix f s
  | .mixpix f => Sys2Proof.Machine.execMixpix f s
  | .jmpsw f => Sys2Proof.Machine.execJmpsw f s
  | .jmpswd f => Sys2Proof.Machine.execJmpswd f s
  | .ijz f => Sys2Proof.Machine.execIjz f s
  | .ijzd f => Sys2Proof.Machine.execIjzd f s
  | .ijnz f => Sys2Proof.Machine.execIjnz f s
  | .ijnzd f => Sys2Proof.Machine.execIjnzd f s
  | .djz f => Sys2Proof.Machine.execDjz f s
  | .djzd f => Sys2Proof.Machine.execDjzd f s
  | .djnz f => Sys2Proof.Machine.execDjnz f s
  | .djnzd f => Sys2Proof.Machine.execDjnzd f s
  | .testb f => Sys2Proof.Machine.execTestb f s
  | .testn f => Sys2Proof.Machine.execTestn f s
  | .test f => Sys2Proof.Machine.execTest f s
  | .cmp f => Sys2Proof.Machine.execCmp f s
  | .cmpx f => Sys2Proof.Machine.execCmpx f s
  | .cmps f => Sys2Proof.Machine.execCmps f s
  | .cmpsx f => Sys2Proof.Machine.execCmpsx f s
  | .cmpr f => Sys2Proof.Machine.execCmpr f s
  | .coginit n f => Sys2Proof.Machine.execCoginit n f s
  | .waitvidImm n f => Sys2Proof.Machine.execWaitvidImm n f s
  | .waitvid f => Sys2Proof.Machine.execWaitvid f s
  | .waitpeq n f => Sys2Proof.Machine.execWaitpeq n f s
  | .waitpne n f => Sys2Proof.Machine.execWaitpne n f s
  | .wrbyte f => Sys2Proof.Machine.execWrbyte f s
  | .wrword f => Sys2Proof.Machine.execWrword f s
  | .wrlong f => Sys2Proof.Machine.execWrlong f s
  | .frac f => Sys2Proof.Machine.execFrac f s
  | .wraux f => Sys2Proof.Machine.execWraux f s
  | .wrauxr f => Sys2Proof.Machine.execWrauxr f s
  | .setacca f => Sys2Proof.Machine.execSetacca f s
  | .setaccb f => Sys2Proof.Machine.execSetaccb f s
  | .maca f => Sys2Proof.Machine.execMaca f s
  | .macb f => Sys2Proof.Machine.execMacb f s
  | .mul32 f => Sys2Proof.Machine.execMul32 f s
  | .mul32u f => Sys2Proof.Machine.execMul32u f s
  | .div32 f => Sys2Proof.Machine.execDiv32 f s
  | .div32u f => Sys2Proof.Machine.execDiv32u f s
  | .div64 f => Sys2Proof.Machine.execDiv64 f s
  | .div64u f => Sys2Proof.Machine.execDiv64u f s
  | .sqrt64 f => Sys2Proof.Machine.execSqrt64 f s
  | .qsincos f => Sys2Proof.Machine.execQsincos f s
  | .qarctan f => Sys2Proof.Machine.execQarctan f s
  | .qrotate f => Sys2Proof.Machine.execQrotate f s
  | .setsera f => Sys2Proof.Machine.execSetsera f s
  | .setserb f => Sys2Proof.Machine.execSetserb f s
  | .setctrs f => Sys2Proof.Machine.execSetctrs f s
  | .setwavs f => Sys2Proof.Machine.execSetwavs f s
  | .setfrqs f => Sys2Proof.Machine.execSetfrqs f s
  | .setphss f => Sys2Proof.Machine.execSetphss f s
  | .addphss f => Sys2Proof.Machine.execAddphss f s
  | .subphss f => Sys2Proof.Machine.execSubphss f s
  | .jp f => Sys2Proof.Machine.execJp f s
  | .jpd f => Sys2Proof.Machine.execJpd f s
  | .jnp f => Sys2Proof.Machine.execJnp f s
  | .jnpd f => Sys2Proof.Machine.execJnpd f s
  | .cfgpins n f => Sys2Proof.Machine.execCfgpins n f s
  | .jmptask f => Sys2Proof.Machine.execJmptask f s
  | .setxfr f => Sys2Proof.Machine.execSetxfr f s
  | .setmix f => Sys2Proof.Machine.execSetmix f s
  | .jz f => Sys2Proof.Machine.execJz f s
  | .jzd f => Sys2Proof.Machine.execJzd f s
  | .jnz f => Sys2Proof.Machine.execJnz f s
  | .jnzd f => Sys2Proof.Machine.execJnzd f s
  | .locbase f => Sys2Proof.Machine.execLocbase f s
  | .locbyte f => Sys2Proof.Machine.execLocbyte f s
  | .locword f => Sys2Proof.Machine.execLocword f s
  | .loclong f => Sys2Proof.Machine.execLoclong f s
  | .jmplist f => Sys2Proof.Machine.execJmplist f s
  | .locinst f => Sys2Proof.Machine.execLocinst f s
  | .reps n k => Sys2Proof.Machine.execReps n k s
  | .augs n => Sys2Proof.Machine.execAugs n s
  | .augd n => Sys2Proof.Machine.execAugd n s
  | .fixinda f => Sys2Proof.Machine.execFixinda f s
  | .fixindb f => Sys2Proof.Machine.execFixindb f s
  | .fixinds f => Sys2Proof.Machine.execFixinds f s
  | .setindaAbs f => Sys2Proof.Machine.execSetindaAbs f s
  | .setindaRel f => Sys2Proof.Machine.execSetindaRel f s
  | .setindbAbs f => Sys2Proof.Machine.execSetindbAbs f s
  | .setindbRel f => Sys2Proof.Machine.execSetindbRel f s
  | .setindsAbsAbs f => Sys2Proof.Machine.execSetindsAbsAbs f s
  | .setindsAbsRel f => Sys2Proof.Machine.execSetindsAbsRel f s
  | .setindsRelAbs f => Sys2Proof.Machine.execSetindsRelAbs f s
  | .setindsRelRel f => Sys2Proof.Machine.execSetindsRelRel f s
  | .locptraAbs f => Sys2Proof.Machine.execLocptraAbs f s
  | .locptraRel f => Sys2Proof.Machine.execLocptraRel f s
  | .locptrbAbs f => Sys2Proof.Machine.execLocptrbAbs f s
  | .locptrbRel f => Sys2Proof.Machine.execLocptrbRel f s
  | .jmpAbs f => Sys2Proof.Machine.execJmpAbs f s
  | .jmpRel f => Sys2Proof.Machine.execJmpRel f s
  | .jmpdAbs f => Sys2Proof.Machine.execJmpdAbs f s
  | .jmpdRel f => Sys2Proof.Machine.execJmpdRel f s
  | .callAbs f => Sys2Proof.Machine.execCallAbs f s
  | .callRel f => Sys2Proof.Machine.execCallRel f s
  | .calldAbs f => Sys2Proof.Machine.execCalldAbs f s
  | .calldRel f => Sys2Proof.Machine.execCalldRel f s
  | .callaAbs f => Sys2Proof.Machine.execCallaAbs f s
  | .callaRel f => Sys2Proof.Machine.execCallaRel f s
  | .calladAbs f => Sys2Proof.Machine.execCalladAbs f s
  | .calladRel f => Sys2Proof.Machine.execCalladRel f s
  | .callbAbs f => Sys2Proof.Machine.execCallbAbs f s
  | .callbRel f => Sys2Proof.Machine.execCallbRel f s
  | .callbdAbs f => Sys2Proof.Machine.execCallbdAbs f s
  | .callbdRel f => Sys2Proof.Machine.execCallbdRel f s
  | .callxAbs f => Sys2Proof.Machine.execCallxAbs f s
  | .callxRel f => Sys2Proof.Machine.execCallxRel f s
  | .callxdAbs f => Sys2Proof.Machine.execCallxdAbs f s
  | .callxdRel f => Sys2Proof.Machine.execCallxdRel f s
  | .callyAbs f => Sys2Proof.Machine.execCallyAbs f s
  | .callyRel f => Sys2Proof.Machine.execCallyRel f s
  | .callydAbs f => Sys2Proof.Machine.execCallydAbs f s
  | .callydRel f => Sys2Proof.Machine.execCallydRel f s
  | .cogid f => Sys2Proof.Machine.execCogid f s
  | .taskid f => Sys2Proof.Machine.execTaskid f s
  | .locknew f => Sys2Proof.Machine.execLocknew f s
  | .getlfsr f => Sys2Proof.Machine.execGetlfsr f s
  | .getcnt f => Sys2Proof.Machine.execGetcnt f s
  | .getcntx f => Sys2Proof.Machine.execGetcntx f s
  | .getacal f => Sys2Proof.Machine.execGetacal f s
  | .getacah f => Sys2Proof.Machine.execGetacah f s
  | .getacbl f => Sys2Proof.Machine.execGetacbl f s
  | .getacbh f => Sys2Proof.Machine.execGetacbh f s
  | .getptra f => Sys2Proof.Machine.execGetptra f s
  | .getptrb f => Sys2Proof.Machine.execGetptrb f s
  | .getptrx f => Sys2Proof.Machine.execGetptrx f s
  | .getptry f => Sys2Proof.Machine.execGetptry f s
  | .serina f => Sys2Proof.Machine.execSerina f s
  | .serinb f => Sys2Proof.Machine.execSerinb f s
  | .getmull f => Sys2Proof.Machine.execGetmull f s
  | .getmulh f => Sys2Proof.Machine.execGetmulh f s
  | .getdivq f => Sys2Proof.Machine.execGetdivq f s
  | .getdivr f => Sys2Proof.Machine.execGetdivr f s
  | .getsqrt f => Sys2Proof.Machine.execGetsqrt f s
  | .getqx f => Sys2Proof.Machine.execGetqx f s
  | .getqy f => Sys2Proof.Machine.execGetqy f s
  | .getqz f => Sys2Proof.Machine.execGetqz f s
  | .getphsa f => Sys2Proof.Machine.execGetphsa f s
  | .getphza f => Sys2Proof.Machine.execGetphza f s
  | .getcosa f => Sys2Proof.Machine.execGetcosa f s
  | .getsina f => Sys2Proof.Machine.execGetsina f s
  | .getphsb f => Sys2Proof.Machine.execGetphsb f s
  | .getphzb f => Sys2Proof.Machine.execGetphzb f s
  | .getcosb f => Sys2Proof.Machine.execGetcosb f s
  | .getsinb f => Sys2Proof.Machine.execGetsinb f s
  | .pushzc f => Sys2Proof.Machine.execPushzc f s
  | .popzc f => Sys2Proof.Machine.execPopzc f s
  | .subcnt f => Sys2Proof.Machine.execSubcnt f s
  | .getpix f => Sys2Proof.Machine.execGetpix f s
  | .binbcd f => Sys2Proof.Machine.execBinbcd f s
  | .bcdbin f => Sys2Proof.Machine.execBcdbin f s
  | .bingry f => Sys2Proof.Machine.execBingry f s
  | .grybin f => Sys2Proof.Machine.execGrybin f s
  | .eswap4 f => Sys2Proof.Machine.execEswap4 f s
  | .eswap8 f => Sys2Proof.Machine.execEswap8 f s
  | .seussf f => Sys2Proof.Machine.execSeussf f s
  | .seussr f => Sys2Proof.Machine.execSeussr f s
  | .incd f => Sys2Proof.Machine.execIncd f s
  | .decd f => Sys2Proof.Machine.execDecd f s
  | .incds f => Sys2Proof.Machine.execIncds f s
  | .decds f => Sys2Proof.Machine.execDecds f s
  | .pop f => Sys2Proof.Machine.execPop f s
  | .repd k f => Sys2Proof.Machine.execRepd k f s
  | .repdInf k f => Sys2Proof.Machine.execRepdInf k f s
  | .clkset f => Sys2Proof.Machine.execClkset f s
  | .cogstop f => Sys2Proof.Machine.execCogstop f s
  | .lockset f => Sys2Proof.Machine.execLockset f s
  | .lockclr f => Sys2Proof.Machine.execLockclr f s
  | .lockret f => Sys2Proof.Machine.execLockret f s
  | .rdwidec f => Sys2Proof.Machine.execRdwidec f s
  | .rdwide f => Sys2Proof.Machine.execRdwide f s
  | .wrwide f => Sys2Proof.Machine.execWrwide f s
  | .getp f => Sys2Proof.Machine.execGetp f s
  | .getnp f => Sys2Proof.Machine.execGetnp f s
  | .serouta f => Sys2Proof.Machine.execSerouta f s
  | .seroutb f => Sys2Proof.Machine.execSeroutb f s
  | .cmpcnt f => Sys2Proof.Machine.execCmpcnt f s
  | .waitpx f => Sys2Proof.Machine.execWaitpx f s
  | .waitpr f => Sys2Proof.Machine.execWaitpr f s
  | .waitpf f => Sys2Proof.Machine.execWaitpf f s
  | .setzc f => Sys2Proof.Machine.execSetzc f s
  | .setmap f => Sys2Proof.Machine.execSetmap f s
  | .setxch f => Sys2Proof.Machine.execSetxch f s
  | .settask f => Sys2Proof.Machine.execSettask f s
  | .setrace f => Sys2Proof.Machine.execSetrace f s
  | .saracca f => Sys2Proof.Machine.execSaracca f s
  | .saraccb f => Sys2Proof.Machine.execSaraccb f s
  | .saraccs f => Sys2Proof.Machine.execSaraccs f s
  | .setptra f => Sys2Proof.Machine.execSetptra f s
  | .setptrb f => Sys2Proof.Machine.execSetptrb f s
  | .addptra f => Sys2Proof.Machine.execAddptra f s
  | .addptrb f => Sys2Proof.Machine.execAddptrb f s
  | .subptra f => Sys2Proof.Machine.execSubptra f s
  | .subptrb f => Sys2Proof.Machine.execSubptrb f s
  | .setwide f => Sys2Proof.Machine.execSetwide f s
  | .setwidz f => Sys2Proof.Machine.execSetwidz f s
  | .setptrx f => Sys2Proof.Machine.execSetptrx f s
  | .setptry f => Sys2Proof.Machine.execSetptry f s
  | .addptrx f => Sys2Proof.Machine.execAddptrx f s
  | .addptry f => Sys2Proof.Machine.execAddptry f s
  | .subptrx f => Sys2Proof.Machine.execSubptrx f s
  | .subptry f => Sys2Proof.Machine.execSubptry f s
  | .passcnt f => Sys2Proof.Machine.execPasscnt f s
  | .wait f => Sys2Proof.Machine.execWait f s
  | .offp f => Sys2Proof.Machine.execOffp f s
  | .notp f => Sys2Proof.Machine.execNotp f s
  | .clrp f => Sys2Proof.Machine.execClrp f s
  | .setp f => Sys2Proof.Machine.execSetp f s
  | .setpc f => Sys2Proof.Machine.execSetpc f s
  | .setpnc f => Sys2Proof.Machine.execSetpnc f s
  | .setpz f => Sys2Proof.Machine.execSetpz f s
  | .setpnz f => Sys2Proof.Machine.execSetpnz f s
  | .div64d f => Sys2Proof.Machine.execDiv64d f s
  | .sqrt32 f => Sys2Proof.Machine.execSqrt32 f s
  | .qlog f => Sys2Proof.Machine.execQlog f s
  | .qexp f => Sys2Proof.Machine.execQexp f s
  | .setqi f => Sys2Proof.Machine.execSetqi f s
  | .setqz f => Sys2Proof.Machine.execSetqz f s
  | .cfgdacs f => Sys2Proof.Machine.execCfgdacs f s
  | .setdacs f => Sys2Proof.Machine.execSetdacs f s
  | .cfgdac0 f => Sys2Proof.Machine.execCfgdac0 f s
  | .cfgdac1 f => Sys2Proof.Machine.execCfgdac1 f s
  | .cfgdac2 f => Sys2Proof.Machine.execCfgdac2 f s
  | .cfgdac3 f => Sys2Proof.Machine.execCfgdac3 f s
  | .setdac0 f => Sys2Proof.Machine.execSetdac0 f s
  | .setdac1 f => Sys2Proof.Machine.execSetdac1 f s
  | .setdac2 f => Sys2Proof.Machine.execSetdac2 f s
  | .setdac3 f => Sys2Proof.Machine.execSetdac3 f s
  | .setctra f => Sys2Proof.Machine.execSetctra f s
  | .setwava f => Sys2Proof.Machine.execSetwava f s
  | .setfrqa f => Sys2Proof.Machine.execSetfrqa f s
  | .setphsa f => Sys2Proof.Machine.execSetphsa f s
  | .addphsa f => Sys2Proof.Machine.execAddphsa f s
  | .subphsa f => Sys2Proof.Machine.execSubphsa f s
  | .setvid f => Sys2Proof.Machine.execSetvid f s
  | .setvidy f => Sys2Proof.Machine.execSetvidy f s
  | .setctrb f => Sys2Proof.Machine.execSetctrb f s
  | .setwavb f => Sys2Proof.Machine.execSetwavb f s
  | .setfrqb f => Sys2Proof.Machine.execSetfrqb f s
  | .setphsb f => Sys2Proof.Machine.execSetphsb f s
  | .addphsb f => Sys2Proof.Machine.execAddphsb f s
  | .subphsb f => Sys2Proof.Machine.execSubphsb f s
  | .setvidi f => Sys2Proof.Machine.execSetvidi f s
  | .setvidq f => Sys2Proof.Machine.execSetvidq f s
  | .setpix f => Sys2Proof.Machine.execSetpix f s
  | .setpixz f => Sys2Proof.Machine.execSetpixz f s
  | .setpixu f => Sys2Proof.Machine.execSetpixu f s
  | .setpixv f => Sys2Proof.Machine.execSetpixv f s
  | .setpixa f => Sys2Proof.Machine.execSetpixa f s
  | .setpixr f => Sys2Proof.Machine.execSetpixr f s
  | .setpixg f => Sys2Proof.Machine.execSetpixg f s
  | .setpixb f => Sys2Proof.Machine.execSetpixb f s
  | .setpora f => Sys2Proof.Machine.execSetpora f s
  | .setporb f => Sys2Proof.Machine.execSetporb f s
  | .setporc f => Sys2Proof.Machine.execSetporc f s
  | .setpord f => Sys2Proof.Machine.execSetpord f s
  | .push f => Sys2Proof.Machine.execPush f s
  | .jmpReg f => Sys2Proof.Machine.execJmpReg f s
  | .jmpdReg f => Sys2Proof.Machine.execJmpdReg f s
  | .callReg f => Sys2Proof.Machine.execCallReg f s
  | .calldReg f => Sys2Proof.Machine.execCalldReg f s
  | .callaReg f => Sys2Proof.Machine.execCallaReg f s
  | .calladReg f => Sys2Proof.Machine.execCalladReg f s
  | .callbReg f => Sys2Proof.Machine.execCallbReg f s
  | .callbdReg f => Sys2Proof.Machine.execCallbdReg f s
  | .callxReg f => Sys2Proof.Machine.execCallxReg f s
  | .callxdReg f => Sys2Proof.Machine.execCallxdReg f s
  | .callyReg f => Sys2Proof.Machine.execCallyReg f s
  | .callydReg f => Sys2Proof.Machine.execCallydReg f s
  | .reta f => Sys2Proof.Machine.execReta f s
  | .retad f => Sys2Proof.Machine.execRetad f s
  | .retb f => Sys2Proof.Machine.execRetb f s
  | .retbd f => Sys2Proof.Machine.execRetbd f s
  | .retx f => Sys2Proof.Machine.execRetx f s
  | .retxd f => Sys2Proof.Machine.execRetxd f s
  | .rety f => Sys2Proof.Machine.execRety f s
  | .retyd f => Sys2Proof.Machine.execRetyd f s
  | .ret f => Sys2Proof.Machine.execRet f s
  | .retd f => Sys2Proof.Machine.execRetd f s
  | .polctra f => Sys2Proof.Machine.execPolctra f s
  | .polctrb f => Sys2Proof.Machine.execPolctrb f s
  | .polvid f => Sys2Proof.Machine.execPolvid f s
  | .capctra f => Sys2Proof.Machine.execCapctra f s
  | .capctrb f => Sys2Proof.Machine.execCapctrb f s
  | .capctrs f => Sys2Proof.Machine.execCapctrs f s
  | .setpixw f => Sys2Proof.Machine.execSetpixw f s
  | .clracca f => Sys2Proof.Machine.execClracca f s
  | .clraccb f => Sys2Proof.Machine.execClraccb f s
  | .clraccs f => Sys2Proof.Machine.execClraccs f s
  | .chkptrx f => Sys2Proof.Machine.execChkptrx f s
  | .chkptry f => Sys2Proof.Machine.execChkptry f s
  | .synctra f => Sys2Proof.Machine.execSynctra f s
  | .synctrb f => Sys2Proof.Machine.execSynctrb f s
  | .dcachex f => Sys2Proof.Machine.execDcachex f s
  | .icachex f => Sys2Proof.Machine.execIcachex f s
  | .icachep f => Sys2Proof.Machine.execIcachep f s
  | .icachen f => Sys2Proof.Machine.execIcachen f s
  | .nop => Sys2Proof.Machine.execNop s
  | .mergen f => Sys2Proof.Machine.execMergen f s
  | .splitn f => Sys2Proof.Machine.execSplitn f s
  | .switch => Sys2Proof.Machine.execSwitch s
  | .switchd => Sys2Proof.Machine.execSwitchd s
  | .pusha f => Sys2Proof.Machine.execPusha f s
  | .pushb f => Sys2Proof.Machine.execPushb f s
  | .popa f => Sys2Proof.Machine.execPopa f s
  | .popb f => Sys2Proof.Machine.execPopb f s
  | .pushx f => Sys2Proof.Machine.execPushx f s
  | .pushy f => Sys2Proof.Machine.execPushy f s
  | .popx f => Sys2Proof.Machine.execPopx f s
  | .popy f => Sys2Proof.Machine.execPopy f s

end Sys2Proof.Machine
end

