-- ==== Sys2Proof/Machine/Turn.lean ====
section
/-!
DEFINITION. One turn of the current cog: what a cog does in one clock (R74, R390, R391, log 6, log 7), and how a word is
put where it will fetch next.
-/

set_option Elab.async false

namespace Sys2Proof.Machine

open Sys2Proof

noncomputable section

/-- The machine with an instruction moved from the queue into stage 4. -/
def State.loadWord (s : State) (e : Slot) (rest : List Slot) : State :=
  let c := s.cog
  s.setCog { c with
    pipe := { c.pipe with queue := rest, ir := e.word }
    stage4 := { c.stage4 with task := e.task, pc := e.addr, cond := true, jump := false } }

/-- A word that no row describes: passed over when its condition fails, else a fault (R195, U33). Words of the IND
patterns have no condition. The trace then shows that the condition failed (R976). -/
def State.undefined (s : State) (e : DecodeError) (w : Word) : Out :=
  if e = .unassignedInd || condHolds (bits w 18 4) s.task.z s.task.c then .fault .undefinedWord
  else s.finish { s.cog with stage4 := { s.cog.stage4 with cond := false } }

/-- The word in stage 4 executes. -/
def State.executeWord (s : State) (w : Word) : Out :=
  match decode w with
  | .ok i => exec i s
  | .error e => s.undefined e w

/-- A cancelled instruction passes through stage 4 and changes no register, flag, memory, pointer or unit (R391); what the trace shows as its condition is open (R976). -/
def State.passCancelled (s : State) : State :=
  let c := s.cog
  s.setCog ({ c with stage4 := { c.stage4 with cond := Config.freeBit s.turn 0x5100 } }.endCycle 0)

/-- The end of a cog's turn: what stage 4 shows of the clock (R976), and, when an instruction is done, stage 1 fetches
(R390). A cog that its own instruction stopped or started has no pipeline left. -/
def State.endTurn (s : State) (fetching : Bool) : State :=
  let c := s.cog
  if c.run ≠ .running then s
  else
    let done := !fetching && c.pipe.waiting.isNone && c.pipe.stall == 0
    let c1 := { c with stage4 := { c.stage4 with hub := s.ownsHub, fetch := fetching, go := done } }
    s.setCog (if done then s.prefetch c1 else c1)

/-- An outcome at the end of the turn. -/
def State.closing : Out → Out
  | .next t => .next (t.endTurn false)
  | .fault e => .fault e
  | .refused r => .refused r

/-- The instruction at the head of the queue has its turn (R390, R391). One of the ROM longs is refused (R124). -/
def State.runSlot (s : State) (e : Slot) (rest : List Slot) : Out :=
  let t := s.loadWord e rest
  if e.cancelled then .next t.passCancelled
  else if e.rom then .refused .romCode
  else t.executeWord e.word

/-- The turn of a running cog: stage 4 stays busy, an instruction waits there, or, with three instructions in the queue,
the next one comes; until they are fetched the pipeline is stalled, and a missing line is loaded in the hub cycle
(R150). DESIGN CHOICE: while it is stalled for a fetch, TASK, COND and JUMP go on showing the instruction that finished last
(R976 is silent, log 39). -/
def State.runCog (s : State) : Out :=
  let c := s.cog
  let p := c.pipe
  if p.stall ≠ 0 then State.closing (.next (s.setCog { c with pipe := { p with stall := p.stall - 1 } }))
  else if p.waiting.isSome then State.closing (s.executeWord p.ir)
  else
    let t := s.setCog (s.prefetch c)
    match t.cog.pipe.queue with
    | [e, x, y] => State.closing (t.runSlot e [x, y])
    | _ =>
      match (s.filled c).missing with
      | some a =>
        if s.ownsHub then .next ((t.setCog { t.cog with icache := t.cog.icache.load s.hub.mem a }).endTurn true)
        else .next (t.endTurn true)
      | none => .next (t.endTurn true)

/-- The turn of the current cog, whatever it is doing (R35). -/
def State.cogTurn (s : State) : Out :=
  match s.cog.run with
  | .running => s.runCog
  | .idle => .next s
  | .loading _ => .next s

/-- The turn, and then the next cog's (log 6). -/
def State.turnOf (s : State) : Out :=
  match s.cogTurn with
  | .next t => .next t.nextTurn
  | .fault e => .fault e
  | .refused r => .refused r

/-! ### Placing a word for the next fetch -/

/-- A pipeline with nothing in it. -/
def Pipe.empty (p : Pipe) : Pipe := { p with queue := [], waiting := none, waited := 0, stall := 0 }

/-- The word in the register that the fetch at `a` reads; $1F2 to $1F7 cannot hold one, there the task is sent to
register 0. -/
def Cog.placeRegister (c : Cog) (a : RegAddr) (w : Word) : Cog :=
  if 0x1F2 ≤ a.toNat && a.toNat < 0x1F8 then (c.setTask { c.task with pc := 0 }).putPlain 0 w else c.putPlain a w

/-- The word in hub memory and in the cache line of its block. -/
def State.placeHub (s : State) (p : Addr) (w : Word) : State :=
  let a := 4 * p.toNat
  let hub := { s.hub with mem := s.hub.mem.setLong a w }
  let c := s.cog
  let q := match c.icache.find? p with | some _ => c.icache | none => c.icache.load hub.mem p
  let lines := q.lines.mapIdx fun _ l => if l.hits p then { l with longs := l.longs.set (bits p 0 3).toFin w } else l
  let cog := { c with icache := { q with lines := lines, since := hub.hist.length } }
  { s with hub := hub }.setCog cog

/-- The word at the head of the queue, and behind it two cancelled entries. -/
def Cog.placeSlot (c : Cog) (w : Word) : Cog :=
  let pass (n : Nat) : Slot := ⟨0, c.taskLater n, 0, true, false⟩
  { c with pipe := { c.pipe with queue := [⟨w, c.cur, c.task.pc, false, false⟩, pass 1, pass 2] } }

/-- The current cog runs, and the instruction it executes next is `w`. The word stands where the fetch of the next step
finds it; where that fetch would have to wait for another word of the queue, or reads the ROM, it stands in the queue
too. -/
def State.placeWord (s : State) (w : Word) : State :=
  let c := { s.cog with run := .running, pipe := s.cog.pipe.empty }
  let p := c.task.pc
  let t := if p.toNat < 0x200 then s.setCog (c.placeRegister (bits p 0 9) w) else (s.setCog c).placeHub p w
  if (t.filled t.cog).missing.isSome || (decide (0x200 ≤ p.toNat) && isRomCode (4 * p.toNat)) then
    t.setCog (t.cog.placeSlot w)
  else t

end

end Sys2Proof.Machine
end

