-- ==== Sys2Proof/Machine/Step.lean ====
section
/-!
DEFINITION. The step: one turn of one cog (log 6). Both definitions only call Turn.lean.
-/

set_option Elab.async false

namespace Sys2Proof.Machine

open Sys2Proof

noncomputable section

/-- One step of the machine. -/
def step (s : State) : Host.Outcome State Fault Refusal := s.turnOf

/-- The machine with an instruction word where the current cog fetches next (log 1). -/
def State.withFetchWord (s : State) (_nbits w : Nat) : State := s.placeWord (BitVec.ofNat 32 w)

end

end Sys2Proof.Machine
end

