-- ==== Sys2Proof/Safety.lean ====
section
/-!
DEFINITION. The terms statements use: which states are well-formed, which steps are safe, when an instruction executes, and
the states it can leave.
-/

set_option Elab.async false

namespace Sys2Proof.Machine

open Sys2Proof

/-! ### Well-formed states -/

/-- A task's stack holds at most four longs (R49), and at most three instructions stand before a delayed branch (R52). -/
def Task.fits (k : Task) : Bool := decide (k.stack.length ≤ 4) && decide (k.dlyCount ≤ 3)

/-- Canonical register RAM (R36; the longs under the indirect windows are kept too, R38) and AUX (R44), tasks that fit, a
slot pointer inside its schedule (R48), and at most three instructions on their way to stage 4 (R390, R1012). -/
def Cog.wf (c : Cog) : Bool :=
  Sparse.wfFrom zeroes 0x1F4 0 c.ram && Sparse.wfFrom zeroes 256 0 c.aux
    && (c.tasks.e0.fits && c.tasks.e1.fits && c.tasks.e2.fits && c.tasks.e3.fits)
    && decide (c.sched.slot < slotCount c.sched.slots) && decide (c.pipe.queue.length ≤ 3)

/-- Canonical hub memory (R31) and eight well-formed cogs. -/
def State.wf (s : State) : Bool := s.hub.mem.wf && (s.cogs.toList.map Cog.wf).all id

/-! ### Safe steps -/

/-- Whatever state an outcome goes on with has a property. -/
def Out.keeps (o : Out) (p : State → Prop) : Prop := ∀ t, o = .next t → p t

/-- A step that goes on. -/
def State.goesOn (s : State) : Prop := ∃ t, step s = .next t

/-- A run of so many steps that goes on throughout. -/
def State.runsFor (s : State) : Nat → Prop
  | 0 => True
  | n + 1 => ∃ t, step s = .next t ∧ t.runsFor n

/-! ### When an instruction executes -/

/-- An instruction enters stage 4: none is waiting there (R398). -/
abbrev State.enters (s : State) : Prop := s.cog.pipe.waiting = none

/-- It enters, and its condition holds or an operand is indirect (R174, R182). -/
abbrev State.executes (s : State) (cond : BitVec 4) (du : DUse) (su : SUse) : Prop :=
  s.enters ∧ (forced du su || condHolds cond s.task.z s.task.c) = true

/-- It enters, its condition fails, and no operand is indirect. -/
abbrev State.skips (s : State) (cond : BitVec 4) (du : DUse) (su : SUse) : Prop :=
  s.enters ∧ (forced du su || condHolds cond s.task.z s.task.c) = false

/-- The machine with the operands of an instruction decoded: INDA and INDB stepped, the AUG latches used emptied (R177,
R180). -/
def State.opened (s : State) (cond : BitVec 4) (du : DUse) (su : SUse) : State := s.setCog (s.cog.decoded cond du su)

/-- An instruction stands in stage 4 of the machine `t` with the operands `o`: it enters now and executes, or it has been
waiting there with them (R398). -/
def State.stage4 (s : State) (cond : BitVec 4) (du : DUse) (su : SUse) (o : Operands) (t : State) : Prop :=
  (s.executes cond du su ∧ o = s.operands cond du su ∧ t = s.opened cond du su)
    ∨ ∃ w, s.cog.pipe.waiting = some w ∧ o = w.ops ∧ t = s

/-- The operands of the instruction in stage 4: those it decodes if it enters now, those it keeps if it has been waiting
(R183, R398). -/
def State.opsNow (s : State) (cond : BitVec 4) (du : DUse) (su : SUse) : Operands :=
  match s.cog.pipe.waiting with
  | some w => w.ops
  | none => s.operands cond du su

/-- The cog in which it acts on them. -/
def State.cogNow (s : State) (cond : BitVec 4) (du : DUse) (su : SUse) : Cog :=
  match s.cog.pipe.waiting with
  | some _ => s.cog
  | none => (s.opened cond du su).cog

/-! ### The states an instruction leaves -/

/-- The machine at the end of an instruction cycle of the current cog that leaves `c` and does not branch. -/
def State.ends (s : State) (c : Cog) (stall : Nat) : State := s.setCog (c.retire stall)

/-- The machine after an instruction that wrote a D register and the flags it asked for. -/
def State.wrote (s : State) (d : RegAddr) (r : Word) (wz wc z c : Bool) (stall : Nat) : State :=
  s.ends ((s.cog.setFlags wz wc z c).writeReg d r) stall

/-- The machine after an instruction whose condition failed: its operands are decoded, and it passes on (R174). -/
def State.passed (s : State) (cond : BitVec 4) (du : DUse) (su : SUse) : State :=
  (s.opened cond du su).ends (s.opened cond du su).cog 0

/-- The machine while the current instruction waits in stage 4 with its operands (R398). -/
def State.waits (s : State) (o : Operands) (pin : Bool) : State :=
  s.setCog { s.cog with pipe := { s.cog.pipe with waiting := some ⟨o, pin⟩, waited := s.cog.pipe.waited + 1 } }

/-- The machine after a taken branch of the current task (R391), or a taken delayed one (R451). -/
def State.jumped (s : State) (c : Cog) (p : Addr) (delayed : Bool) (stall : Nat) : State :=
  s.setCog ((if delayed then c.delayed p else s.redirect c c.cur p).endCycle stall)

/-! ### What an instruction answers -/

/-- An instruction that writes D at `d` goes on to `u`; at $1F2 and $1F3 it is refused (U7). -/
def Out.delivers (out : Out) (d : RegAddr) (u : State) : Prop :=
  (isWindow d = false → out = .next u) ∧ (isWindow d = true → out = .refused .indirectWindow)

/-- A branch from the cog `c`: taken, unless a delayed branch of the task still waits (U43). -/
def Out.branches (out : Out) (s : State) (c : Cog) (p : Addr) (delayed : Bool) (stall : Nat := 0) : Prop :=
  (c.task.dlyCount = 0 → out = .next (s.jumped c p delayed stall))
    ∧ (c.task.dlyCount ≠ 0 → out = .refused .delaySlot)

/-- Does the task's PC stand inside its active repeat block, which may run from $FFFF on to $0000? -/
def Task.inBlock (k : Task) : Bool :=
  k.rep.active && decide ((k.pc - k.rep.first).toNat ≤ (k.rep.last - k.rep.first).toNat)

/-- A conditional branch not taken goes on; inside a repeat block it is open whether the block goes on too (U41). -/
def Out.fallsThrough (out : Out) (s : State) (c : Cog) : Prop :=
  ∃ b, (c.task.inBlock = false → b = c.task.rep.active)
    ∧ out = .next (s.ends (c.setTask { c.task with rep := { c.task.rep with active := b } }) 0)

/-- A hub instruction acts in its cog's hub cycle and waits until then (R135, R290). -/
def Out.inHubCycle (out : Out) (t : State) (o : Operands) (acts : Prop) : Prop :=
  (t.ownsHub = true → acts) ∧ (t.ownsHub = false → out = .next (t.waits o false))

/-- An instruction that acts when it is ready, and until then stalls in single-task mode and jumps to itself in multi-task
mode (R398). -/
def Out.whenReady (out : Out) (t : State) (o : Operands) (ready : Bool) (acts : Prop) : Prop :=
  (ready = true → acts)
    ∧ (ready = false → t.cog.multiTask = false → out = .next (t.waits o false))
    ∧ (ready = false → t.cog.multiTask = true → out.branches t t.cog t.task.pc false)

/-- An instruction that writes D and flags: what the spec says of the result, of Z given the result, and of C; and for
how many clocks more it stays in stage 4. What it does not say is open. -/
structure DResult where
  i : Instr
  r : Word → Prop
  z : Word → Bool → Prop := fun r z => z = decide (r = 0)
  c : Bool → Prop := fun _ => True
  stall : Nat := 0

/-- It writes such a result and such flags and nothing else; at $1F2 and $1F3 it is refused (U7). -/
def DResult.holds (g : DResult) (s t : State) (d : RegAddr) (wz wc : Bool) : Prop :=
  ∃ r z c, g.r r ∧ g.z r z ∧ g.c c ∧ Out.delivers (exec g.i s) d (t.wrote d r wz wc z c g.stall)

/-- An instruction that writes flags only. -/
structure FlagResult where
  i : Instr
  z : Bool → Prop
  c : Bool → Prop := fun _ => True

def FlagResult.holds (g : FlagResult) (s t : State) (wz wc : Bool) : Prop :=
  ∃ z c, g.z z ∧ g.c c ∧ exec g.i s = .next (t.ends (t.cog.setFlags wz wc z c) 0)

/-- Is the number of ones of a word odd? -/
def oddOnes (v : Word) : Bool := (List.range 32).countP (v.getLsbD ·) % 2 == 1

/-! ### What an instruction leaves alone -/

/-- All of the machine that no result goes to: the hub apart from its memory, every other cog, every byte of memory but
those of `stores`, every register but those of `writes`, every AUX long but those of `pushes`, the other tasks, and the
flags that are not asked for. -/
structure State.frame (s t : State) (stores : Nat → Prop) (writes : RegAddr → Prop) (pushes : Byte → Prop)
    (wz wc : Bool) : Prop where
  memory : ∀ a, ¬stores a → t.hub.mem.byte a = s.hub.mem.byte a
  cnt : t.hub.cnt = s.hub.cnt
  clk : t.hub.clk = s.hub.clk
  lockState : t.hub.lockState = s.hub.lockState
  lockTaken : t.hub.lockTaken = s.hub.lockTaken
  cur : t.cur = s.cur
  cogs : ∀ k, k ≠ s.cur → t.cogs.get k = s.cogs.get k
  registers : ∀ a, ¬writes a → t.cog.stored a = s.cog.stored a
  aux : ∀ a, ¬pushes a → auxRead t.cog.aux a = auxRead s.cog.aux a
  tasks : ∀ k, k ≠ s.cog.cur → t.cog.tasks.get k = s.cog.tasks.get k
  z : wz = false → (t.cog.tasks.get s.cog.cur).z = s.task.z
  c : wc = false → (t.cog.tasks.get s.cog.cur).c = s.task.c

/-- The pointers and every unit of a cog are as before. -/
structure Cog.sameUnits (c k : Cog) : Prop where
  run : k.run = c.run
  ptra : k.ptra = c.ptra
  ptrb : k.ptrb = c.ptrb
  ptrx : k.ptrx = c.ptrx
  ptry : k.ptry = c.ptry
  wide : k.wide.base = c.wide.base ∧ k.wide.mapped = c.wide.mapped ∧ k.wide.tag = c.wide.tag ∧ k.wide.valid = c.wide.valid
  map : k.remap.map = c.remap.map
  xch : k.ports.xch = c.ports.xch
  task : k.sched.task = c.sched.task
  chain : k.chain = c.chain
  trace : k.trace = c.trace
  math : k.math = c.math
  ctra : k.ctra = c.ctra
  ctrb : k.ctrb = c.ctrb
  dac : k.dac = c.dac
  vid : k.vid = c.vid
  pix : k.pix = c.pix
  mix : k.mix = c.mix
  xfr : k.xfr = c.xfr
  sera : k.sera = c.sera
  serb : k.serb = c.serb
  icache : k.icache = c.icache
  opq : k.opq = c.opq

/-- No address. -/
def nowhere {α : Type} : α → Prop := fun _ => False

end Sys2Proof.Machine
end

