-- ==== Sys2Proof/Certificates/Slice0/Obligations.lean ====
section
/-!
DEFINITION. The statements for the provers, one for each entry of OBLIGATIONS.json. A docstring names the rules of spec/ a
statement rests on, and the log entry (notes/assumptions) where a clause is a choice of the model.
-/

set_option Elab.async false

open Sys2Proof Sys2Proof.Machine

/-! ### Decoding and stepping -/

/-- Decoding what the encoder writes for a well-formed instruction gives that instruction back, for every constructor and
every operand value (R170 to R196): no bit of an encoding is dropped. -/
def Obligations.DecodeOfEncodeIsIdentity : Prop :=
  ∀ i : Instr, i.wellFormed = true → decode (encode i) = .ok i

/-- Whatever the decoder reads is well-formed: no word is read as a pattern that belongs to another row (R185, R196). -/
def Obligations.DecodedInstructionIsWellFormed : Prop :=
  ∀ (w : Word) (i : Instr), decode w = .ok i → i.wellFormed = true

/-- Words written out bit by bit from the spec's encodings. -/
def Obligations.WrittenOutWordsDecode : Prop :=
  -- MOV $010,#100 (R581); ADD $010,#1 WZ,WC (R589); SETNIB $010,$011,#6 (R628)
  decode 0b0100000_00_1_1111_000010000_001100100#32 = .ok (.mov ⟨false, false, true, 0xF, 0x010, 100⟩)
    ∧ decode 0b0101000_11_1_1111_000010000_000000001#32 = .ok (.add ⟨true, true, true, 0xF, 0x010, 1⟩)
    ∧ decode 0b1001011_01_0_1111_000010000_000010001#32 = .ok (.setnib 6 ⟨false, 0xF, 0x010, 0x011⟩)
    -- WRLONG #5,PTRA++, which R202 calls PUSHA #5 (R252); REPS #20_000,#4 (R401); JMP #$0200 (R460)
    ∧ decode 0b1101001_01_1_1111_000000101_011000001#32 = .ok (.pusha ⟨true, 0xF, 5⟩)
    ∧ decode 0b1111101_01_1_0100_111000011_111000011#32 = .ok (.reps 19999 3)
    ∧ decode 0b1111110_01_0_1111_00_0000001000000000#32 = .ok (.jmpAbs ⟨0xF, 0x0200⟩)
    -- SWITCH (R484); AUGS (R530); REPD #65,#1 (R402); FIXINDA with bits 24:22 = 000 (R193, R321); CLKSET #$100 (R300)
    ∧ decode 0b1010100_11_0_0011_111110011_111110011#32 = .ok .switch
    ∧ decode 0b1111101_10_00010010001101000101011#32 = .ok (.augs 0b00010010001101000101011)
    ∧ decode 0b1111111_00_1_1111_000111111_001000000#32 = .ok (.repd 0 ⟨true, 0xF, 63⟩)
    ∧ decode 0b1111110_00_0_0001_000001111_000001000#32 = .ok (.fixinda ⟨15, 8⟩)
    ∧ decode 0b1111111_00_1_1111_100000000_010000000#32 = .ok (.clkset ⟨true, 0xF, 0x100⟩)

/-- Exactly the words of R195 (a) to (d) are of no row: the unassigned SINGLE opcodes, the unassigned BBAA of IND, and
the SINGLE rows with a 1 in bit 24, 23 or 22 where the row prints 0. Every other word of the two last primary opcodes,
and every word of the others, is of a row (R190, R192, R193, R195). -/
def Obligations.UnassignedWordsAreExactlyRejected : Prop :=
  (∀ w : Word, bits w 25 7 = 0b1111111#7 →
      (0x031 ≤ (bits w 0 9).toNat ∧ (bits w 0 9).toNat ≤ 0x03F) ∨ (0x0DD ≤ (bits w 0 9).toNat ∧ (bits w 0 9).toNat ≤ 0x0F3)
        ∨ 0x11C ≤ (bits w 0 9).toNat →
      decode w = .error .unassignedSingle)
    ∧ (∀ w : Word, bits w 25 7 = 0b1111110#7 → bits w 22 3 = 0 →
        bits w 18 4 ∈ [0b0000#4, 0b0110#4, 0b0111#4, 0b1001#4, 0b1101#4] → decode w = .error .unassignedInd)
    ∧ (∀ w : Word, (bits w 25 7).toNat < 0b1111110 → ∃ i, decode w = .ok i)
    ∧ (∀ w : Word, bits w 25 7 = 0b1111110#7 →
        ((∃ i, decode w = .ok i) ↔ ¬(bits w 22 3 = 0 ∧ bits w 18 4 ∈ [0b0000#4, 0b0110#4, 0b0111#4, 0b1001#4, 0b1101#4])))
    ∧ ∀ w : Word, bits w 25 7 = 0b1111111#7 →
      let code := (bits w 0 9).toNat
      let among (a b : Nat) : Prop := a ≤ code ∧ code ≤ b
      let unassigned := among 0x031 0x03F ∨ among 0x0DD 0x0F3 ∨ 0x11C ≤ code
      let noZ := among 0x040 0x087 ∨ among 0x08A 0x08F ∨ among 0x091 0x0DC ∨ among 0x10D 0x113 ∨ among 0x116 0x11B
      let noC := among 0x040 0x081 ∨ among 0x084 0x087 ∨ among 0x091 0x0DC ∨ among 0x10D 0x113 ∨ among 0x116 0x11B
      let noL := among 0x000 0x030 ∨ among 0x0F4 0x0FF
      ((∃ i, decode w = .ok i) ↔ ¬(unassigned ∨ (noZ ∧ w.getLsbD 24 = true) ∨ (noC ∧ w.getLsbD 23 = true)
        ∨ (noL ∧ w.getLsbD 22 = true)))

/-- A step with three instructions in the queue executes the word of the first one in the state in which it stands in
stage 4, and then the turn passes to the next cog; a fault or refusal of it stops the machine. What step adds is
`prefetch` (stage 1 fills the queue), `loadWord` (the word into stage 4), `endTurn` (stage 1 fetches again, the trace)
and `nextTurn` (the other cogs' turns, the clock). A cancelled instruction passes through (R391), a ROM long is refused
(R124). The first instruction of the queue stands as it was fetched if it is where its task is, or cancelled; else it is
the word at the task's PC as it is fetched now (R74, R390, R1000, R1001, log 7). An instruction that waits in stage 4
runs again from the word that stands there, with no fetch (R398). A word of no row stops the machine when its condition
holds, or, in the IND pattern, which has no condition, always; when its condition fails it is passed over (R195, U33;
that the stop is a fault of the model is log 19). -/
def Obligations.StepRunsTheDecodedInstruction : Prop :=
  (∀ (s : State) (e x y : Slot),
     s.cog.run = .running → s.cog.pipe.stall = 0 → s.cog.pipe.waiting = none → (s.filled s.cog).queue = [e, x, y] →
     let t := (s.setCog (s.prefetch s.cog)).loadWord e [x, y]
     (∀ i, e.cancelled = false → e.rom = false → decode e.word = .ok i →
         (∀ u, exec i t = .next u → step s = .next (u.endTurn false).nextTurn)
           ∧ (∀ r, exec i t = .fault r → step s = .fault r)
           ∧ (∀ r, exec i t = .refused r → step s = .refused r))
       ∧ (∀ err, e.cancelled = false → e.rom = false → decode e.word = .error err →
           let runs := err = .unassignedInd ∨ condHolds (bits e.word 18 4) t.task.z t.task.c = true
           let c := { t.cog with stage4 := { t.cog.stage4 with cond := false } }
           (runs → step s = .fault .undefinedWord)
             ∧ (¬runs → step s = .next ((t.ends c 0).endTurn false).nextTurn))
       ∧ (e.cancelled = true → step s = .next (t.passCancelled.endTurn false).nextTurn)
       ∧ (e.cancelled = false → e.rom = true → step s = .refused .romCode))
    ∧ (∀ (s : State) (e : Slot) (rest : List Slot), (s.filled s.cog).queue = e :: rest →
         let stands (e0 : Slot) : Prop := e0.cancelled = true ∨ (e0.task = s.cog.cur ∧ e0.addr = s.task.pc)
         (∀ e0 old, s.cog.pipe.queue = e0 :: old → stands e0 → e = e0)
           ∧ ((s.cog.pipe.queue = [] ∨ ∃ e0 old, s.cog.pipe.queue = e0 :: old ∧ ¬stands e0) →
               ∃ w, s.fetch s.cog s.cog.icache s.task.pc 0x5002 = some w
                 ∧ e = ⟨w.word, s.cog.cur, s.task.pc, false, w.rom⟩))
    ∧ (∀ (s : State) (h : Waiting) (i : Instr),
         s.cog.run = .running → s.cog.pipe.stall = 0 → s.cog.pipe.waiting = some h → decode s.cog.pipe.ir = .ok i →
         (∀ t, exec i s = .next t → step s = .next (t.endTurn false).nextTurn)
           ∧ (∀ e, exec i s = .fault e → step s = .fault e)
           ∧ (∀ r, exec i s = .refused r → step s = .refused r))

/-- Every step from a well-formed state leaves a well-formed state: hub memory, register RAM and AUX keep their canonical
form, no task stack passes four longs (R49), no delayed branch has more than three instructions before it (R52), the slot
pointer stays inside its schedule (R48), and at most three instructions are on their way to stage 4 (R390, R1012). -/
def Obligations.EveryStepKeepsTheStateWellFormed : Prop :=
  ∀ s t : State, s.wf = true → step s = .next t → t.wf = true

/-- The state after reset is well-formed. -/
def Obligations.ResetStateIsWellFormed : Prop := State.reset.wf = true

/-- The ROM cannot change: after every step from a well-formed state the bytes below $00E00 read as the ROM image does
(R124; that a write there leaves it alone is decision D17, log 4). -/
def Obligations.NoStepChangesTheRom : Prop :=
  ∀ s t : State, s.wf = true → step s = .next t → ∀ a, a < 0x00E00 → t.hub.mem.byte a = Memory.unlisted a

/-- What reset leaves (R75, R991): cog 0 runs task 0 from $000 with flags clear, PTRA = 0 and PTRB = $00E00, the others
are idle; CNT, CLK, locks and all free-running units are at rest (counters, VID, XFR, both serial transceivers and the
trace off, DAC channels under software, QI = 0), prefetch is on, WAV = $400201FF, the DACs at $00100, M = $001, SAB =
$FF. That the machine starts in BOOT_STATE with cog 0 loaded is the recommendation of R991 (log 1). That XCH is 0 is the
model's choice: R75 leaves it unspecified (D4, U1, log 2). -/
def Obligations.ResetLeavesTheBootState : Prop :=
  State.reset.cog.run = .running ∧ State.reset.cur = 0 ∧ State.reset.cog.cur = 0
    ∧ (∀ k : Fin 8, k ≠ 0 → (State.reset.cogs.get k).run = .idle)
    ∧ (∀ k : Fin 4, (State.reset.cog.tasks.get k).pc = BitVec.ofNat 16 k.val
        ∧ (State.reset.cog.tasks.get k).z = false ∧ (State.reset.cog.tasks.get k).c = false
        ∧ (State.reset.cog.tasks.get k).stack = [])
    ∧ State.reset.cog.ptra = 0 ∧ State.reset.cog.ptrb = 0x00E00
    ∧ State.reset.cog.sched.task = 0 ∧ State.reset.cog.remap.map = 0 ∧ State.reset.cog.wide.mapped = false
    ∧ State.reset.cog.ctra.wav = 0x400201FF ∧ State.reset.cog.ctrb.wav = 0x400201FF
    ∧ State.reset.cog.dac.val = Quad.all 0x00100 ∧ State.reset.cog.mix.m = 0x001 ∧ State.reset.cog.mix.sab = 0xFF
    ∧ State.reset.cog.math.acca = 0 ∧ State.reset.cog.math.accb = 0
    ∧ State.reset.hub.cnt = 0 ∧ State.reset.hub.clk = 0
    ∧ State.reset.hub.lockTaken = Octet.all false ∧ State.reset.hub.lockState = Octet.all false
    ∧ State.reset.cog.ctra.cfg = 0 ∧ State.reset.cog.ctrb.cfg = 0 ∧ State.reset.cog.vid.cfg = 0
    ∧ State.reset.cog.xfr.cfg = 0 ∧ State.reset.cog.sera.cfg = 0 ∧ State.reset.cog.serb.cfg = 0
    ∧ State.reset.cog.trace = 0 ∧ State.reset.cog.dac.cfg = Quad.all 0 ∧ State.reset.cog.math.qi = 0
    ∧ State.reset.cog.ports.xch = 0 ∧ State.reset.cog.ports.out = Quad.all 0 ∧ State.reset.cog.ports.dir = Quad.all 0
    ∧ State.reset.cog.icache.prefetch = true ∧ ∀ k : Fin 4, (State.reset.cog.icache.lines.get k).valid = false

/-- A conditional instruction whose condition fails executes nothing: its operands are decoded, and the task goes on (R174,
R176). What decoding does stays: a pending AUGS or AUGD is emptied by a plain constant all the same (decision D19, log 43),
and, the model's choice, it stays pending behind a constant of another kind, whose meeting with it U31 leaves open (log
23). Every conditional instruction, by the way its operands are given. NOP is the word with a condition that never holds
(R198). GETPIX is the exception: with a condition that can fail it is refused (R906, U30, log 22). -/
def Obligations.FailedConditionOnlyPassesOn : Prop :=
  (∀ s : State, s.enters → exec .nop s = .next (s.passed 0 (.reg 0) (.reg 0)))
    ∧ (∀ (s : State) (f : Dual), s.skips f.cond (.reg f.d) (hubS f.i f.s) →
      ∀ i ∈ [.rdbyte f, .rdbytec f, .rdword f, .rdwordc f, .rdlong f, .rdlongc f],
      exec i s = .next (s.passed f.cond (.reg f.d) (hubS f.i f.s)))
    ∧ (∀ (s : State) (f : Dual), s.skips f.cond (.reg f.d) (auxS f.i f.s) →
      ∀ i ∈ [.rdaux f, .rdauxr f],
      exec i s = .next (s.passed f.cond (.reg f.d) (auxS f.i f.s)))
    ∧ (∀ (s : State) (f : Dual), s.skips f.cond (.reg f.d) (si f.i f.s) →
      ∀ i ∈ [.isob f, .notb f, .clrb f, .setb f, .setbc f, .setbnc f, .setbz f, .setbnz f, .andn f, .and f, .or f, .xor f,
         .muxc f, .muxnc f, .muxz f, .muxnz f, .ror f, .rol f, .shr f, .shl f, .rcr f, .rcl f, .sar f, .rev f, .mov f,
         .not f, .abs f, .neg f, .negc f, .negnc f, .negz f, .negnz f, .add f, .sub f, .addx f, .subx f, .adds f,
         .subs f, .addsx f, .subsx f, .sumc f, .sumnc f, .sumz f, .sumnz f, .min f, .max f, .mins f, .maxs f, .addabs
         f, .subabs f, .incmod f, .decmod f, .cmpsub f, .subr f, .mul f, .scl f, .decod2 f, .decod3 f, .decod4 f,
         .decod5 f, .testb f, .testn f, .test f, .cmp f, .cmpx f, .cmps f, .cmpsx f, .cmpr f],
      exec i s = .next (s.passed f.cond (.reg f.d) (si f.i f.s)))
    ∧ (∀ (s : State) (f : DualZ), s.skips f.cond (.reg f.d) (si f.i f.s) →
      ∀ i ∈ [.encod f, .blmask f, .onecnt f, .zercnt f],
      exec i s = .next (s.passed f.cond (.reg f.d) (si f.i f.s)))
    ∧ (∀ (s : State) (f : DualC) (n2 : BitVec 2), s.skips f.cond (.reg f.d) (si f.i f.s) →
      ∀ i ∈ [.incpat f, .decpat f, .cognew f, .waitpeq n2 f, .waitpne n2 f],
      exec i s = .next (s.passed f.cond (.reg f.d) (si f.i f.s)))
    ∧ (∀ (s : State) (f : DualP) (n3 : BitVec 3) (n1 : BitVec 1) (n2 : BitVec 2), s.skips f.cond (.reg f.d) (si f.i f.s) →
      ∀ i ∈ [.splitb f, .mergeb f, .splitw f, .mergew f, .getnib n3 f, .setnib n3 f, .getword n1 f, .setword n1 f,
         .setwrds f, .rolnib f, .rolbyte f, .rolword f, .sets f, .setd f, .setx f, .seti f, .waitcnt f, .waitcntWc f,
         .getbyte n2 f, .setbyte n2 f, .setbyts f, .movbyts f, .packrgb f, .unpkrgb f, .addpix f, .mulpix f, .blnpix
         f, .mixpix f, .coginit n3 f, .waitvid f, .mergen f, .splitn f],
      exec i s = .next (s.passed f.cond (.reg f.d) (si f.i f.s)))
    ∧ (∀ (s : State) (f : Dual), s.skips f.cond (.reg f.d) (sr f.i f.s) →
      ∀ i ∈ [.jmpsw f, .jmpswd f],
      exec i s = .next (s.passed f.cond (.reg f.d) (sr f.i f.s)))
    ∧ (∀ (s : State) (f : DualP), s.skips f.cond (.reg f.d) (sr f.i f.s) →
      ∀ i ∈ [.ijz f, .ijzd f, .ijnz f, .ijnzd f, .djz f, .djzd f, .djnz f, .djnzd f, .jz f, .jzd f, .jnz f, .jnzd f,
         .locbase f, .locbyte f, .locword f, .loclong f, .jmplist f],
      exec i s = .next (s.passed f.cond (.reg f.d) (sr f.i f.s)))
    ∧ (∀ (s : State) (f : DualS) (n12 : BitVec 12), s.skips f.cond (.raw 0) (si f.i f.s) →
      ∀ i ∈ [.waitvidImm n12 f],
      exec i s = .next (s.passed f.cond (.raw 0) (si f.i f.s)))
    ∧ (∀ (s : State) (f : DualL), s.skips f.cond (dl f.l f.d) (hubS f.i f.s) →
      ∀ i ∈ [.wrbyte f, .wrword f, .wrlong f],
      exec i s = .next (s.passed f.cond (dl f.l f.d) (hubS f.i f.s)))
    ∧ (∀ (s : State) (f : DualL) (n2 : BitVec 2), s.skips f.cond (dl f.l f.d) (si f.i f.s) →
      ∀ i ∈ [.frac f, .setacca f, .setaccb f, .maca f, .macb f, .mul32 f, .mul32u f, .div32 f, .div32u f, .div64 f,
         .div64u f, .sqrt64 f, .qsincos f, .qarctan f, .qrotate f, .setsera f, .setserb f, .setctrs f, .setwavs f,
         .setfrqs f, .setphss f, .addphss f, .subphss f, .cfgpins n2 f, .jmptask f, .setxfr f, .setmix f],
      exec i s = .next (s.passed f.cond (dl f.l f.d) (si f.i f.s)))
    ∧ (∀ (s : State) (f : DualL), s.skips f.cond (dl f.l f.d) (auxS f.i f.s) →
      ∀ i ∈ [.wraux f, .wrauxr f],
      exec i s = .next (s.passed f.cond (dl f.l f.d) (auxS f.i f.s)))
    ∧ (∀ (s : State) (f : DualL), s.skips f.cond (dl f.l f.d) (sr f.i f.s) →
      ∀ i ∈ [.jp f, .jpd f, .jnp f, .jnpd f],
      exec i s = .next (s.passed f.cond (dl f.l f.d) (sr f.i f.s)))
    ∧ (∀ (s : State) (f : Loc), s.skips f.cond (.reg f.d) (.raw 0) →
      ∀ i ∈ [.locinst f],
      exec i s = .next (s.passed f.cond (.reg f.d) (.raw 0)))
    ∧ (∀ (s : State) (f : Big), s.skips f.cond (.raw 0) (.raw 0) →
      ∀ i ∈ [.locptraAbs f, .locptraRel f, .locptrbAbs f, .locptrbRel f, .jmpAbs f, .jmpRel f, .jmpdAbs f, .jmpdRel f,
         .callAbs f, .callRel f, .calldAbs f, .calldRel f, .callaAbs f, .callaRel f, .calladAbs f, .calladRel f,
         .callbAbs f, .callbRel f, .callbdAbs f, .callbdRel f, .callxAbs f, .callxRel f, .callxdAbs f, .callxdRel f,
         .callyAbs f, .callyRel f, .callydAbs f, .callydRel f],
      exec i s = .next (s.passed f.cond (.raw 0) (.raw 0)))
    ∧ (∀ (s : State) (f : SingleZC), s.skips f.cond (.reg f.d) (.raw 0) →
      ∀ i ∈ [.cogid f, .taskid f, .locknew f, .getlfsr f, .getcnt f, .getcntx f, .getacal f, .getacah f, .getacbl f,
         .getacbh f, .getptra f, .getptrb f, .getptrx f, .getptry f, .serina f, .serinb f, .getmull f, .getmulh f,
         .getdivq f, .getdivr f, .getsqrt f, .getqx f, .getqy f, .getqz f, .getphsa f, .getphza f, .getcosa f,
         .getsina f, .getphsb f, .getphzb f, .getcosb f, .getsinb f, .pushzc f, .popzc f, .subcnt f,
         .binbcd f, .bcdbin f, .bingry f, .grybin f, .eswap4 f, .eswap8 f, .seussf f, .seussr f, .incd f, .decd f,
         .incds f, .decds f, .pop f, .jmpReg f, .jmpdReg f, .callReg f, .calldReg f, .callaReg f, .calladReg f,
         .callbReg f, .callbdReg f, .callxReg f, .callxdReg f, .callyReg f, .callydReg f, .popa f, .popb f, .popx f,
         .popy f],
      exec i s = .next (s.passed f.cond (.reg f.d) (.raw 0)))
    ∧ (∀ (s : State) (f : SingleL) (n6 : BitVec 6), s.skips f.cond (dl f.l f.d) (.raw 0) →
      ∀ i ∈ [.repd n6 f, .clkset f, .cogstop f, .lockret f, .setmap f, .setxch f, .settask f, .setrace f, .saracca f,
         .saraccb f, .saraccs f, .setptra f, .setptrb f, .addptra f, .addptrb f, .subptra f, .subptrb f, .setwide f,
         .setwidz f, .setptrx f, .setptry f, .addptrx f, .addptry f, .subptrx f, .subptry f, .passcnt f, .wait f,
         .offp f, .notp f, .clrp f, .setp f, .setpc f, .setpnc f, .setpz f, .setpnz f, .div64d f, .sqrt32 f, .qlog f,
         .qexp f, .setqi f, .setqz f, .cfgdacs f, .cfgdac0 f, .cfgdac1 f, .cfgdac2 f, .cfgdac3 f, .setctra f, .setwava
         f, .setfrqa f, .setphsa f, .addphsa f, .subphsa f, .setvid f, .setvidy f, .setctrb f, .setwavb f, .setfrqb f,
         .setphsb f, .addphsb f, .subphsb f, .setvidi f, .setvidq f, .setpix f, .setpixz f, .setpixu f, .setpixv f,
         .setpixa f, .setpixr f, .setpixg f, .setpixb f, .setpora f, .setporb f, .setporc f, .setpord f, .push f,
         .pusha f, .pushb f, .pushx f, .pushy f, .setdacs f],
      exec i s = .next (s.passed f.cond (dl f.l f.d) (.raw 0)))
    ∧ (∀ (s : State) (f : Zero0) (n6 : BitVec 6), s.skips f.cond (.raw 0) (.raw 0) →
      ∀ i ∈ [.repdInf n6 f, .capctra f, .capctrb f, .capctrs f, .setpixw f, .clracca f, .clraccb f, .clraccs f, .synctra
         f, .synctrb f, .dcachex f, .icachex f, .icachep f, .icachen f],
      exec i s = .next (s.passed f.cond (.raw 0) (.raw 0)))
    ∧ (∀ (s : State) (f : SingleCL), s.skips f.cond (dl f.l f.d) (.raw 0) →
      ∀ i ∈ [.lockset f, .lockclr f, .serouta f, .seroutb f, .cmpcnt f, .waitpx f, .waitpr f, .waitpf f],
      exec i s = .next (s.passed f.cond (dl f.l f.d) (.raw 0)))
    ∧ (∀ (s : State) (f : SingleL), s.skips f.cond (hubD f.l f.d) (.raw 0) →
      ∀ i ∈ [.rdwidec f, .rdwide f, .wrwide f],
      exec i s = .next (s.passed f.cond (hubD f.l f.d) (.raw 0)))
    ∧ (∀ (s : State) (f : SingleZCL), s.skips f.cond (dl f.l f.d) (.raw 0) →
      ∀ i ∈ [.getp f, .getnp f, .setzc f],
      exec i s = .next (s.passed f.cond (dl f.l f.d) (.raw 0)))
    ∧ (∀ (s : State) (f : SingleZC), s.skips f.cond (.reg f.d) (.raw 0) → exec (.getpix f) s = .refused .pixUnprepared)
    ∧ (∀ (s : State) (f : SingleL), s.skips f.cond (if f.l then .raw f.d else .reg f.d) (.raw 0) →
      ∀ i ∈ [.setdac0 f, .setdac1 f, .setdac2 f, .setdac3 f],
      exec i s = .next (s.passed f.cond (if f.l then .raw f.d else .reg f.d) (.raw 0)))
    ∧ (∀ (s : State) (f : Zero0ZC), s.skips f.cond (.raw 0) (.raw 0) →
      ∀ i ∈ [.reta f, .retad f, .retb f, .retbd f, .retx f, .retxd f, .rety f, .retyd f, .ret f, .retd f, .polctra f,
         .polctrb f, .polvid f, .chkptrx f, .chkptry f],
      exec i s = .next (s.passed f.cond (.raw 0) (.raw 0)))

/-! ### Arithmetic, logic, bits and fields -/

/-- ISOB, NOTB, CLRB, SETB, SETBC, SETBNC, SETBZ, SETBNZ: bit b = S[4:0] of D isolated, inverted, cleared, set, or made C,
NOT C, Z, NOT Z; Z by the default rule, C open (R557 to R564; the formulas are the spec's from general knowledge, log 13,
the open C is log 14). ANDN, AND, OR, XOR, MUXC, MUXNC, MUXZ, MUXNZ: the result, Z by the default rule, and odd parity of
the result in C (R565 to R572, from general knowledge, log 13). -/
def Obligations.BitAndLogicResults : Prop :=
  ∀ (s t : State) (f : Dual) (o : Operands), s.stage4 f.cond (.reg f.d) (si f.i f.s) o t →
    let B := 1#32 <<< (bits o.sv 0 5).toNat
    let K := o.dv &&& ~~~B
    let D := o.dv
    let S := o.sv
    let mux := fun b : Bool => (D &&& ~~~S) ||| (if b then S else 0)
    ∀ g ∈ ([
      { i := .isob f, r := (· = o.dv &&& B) },
      { i := .notb f, r := (· = o.dv ^^^ B) },
      { i := .clrb f, r := (· = K) },
      { i := .setb f, r := (· = o.dv ||| B) },
      { i := .setbc f, r := (· = if t.task.c then K ||| B else K) },
      { i := .setbnc f, r := (· = if t.task.c then K else K ||| B) },
      { i := .setbz f, r := (· = if t.task.z then K ||| B else K) },
      { i := .setbnz f, r := (· = if t.task.z then K else K ||| B) },
      { i := .andn f, r := (· = D &&& ~~~S), c := (· = oddOnes (D &&& ~~~S)) },
      { i := .and f, r := (· = D &&& S), c := (· = oddOnes (D &&& S)) },
      { i := .or f, r := (· = D ||| S), c := (· = oddOnes (D ||| S)) },
      { i := .xor f, r := (· = D ^^^ S), c := (· = oddOnes (D ^^^ S)) },
      { i := .muxc f, r := (· = mux t.task.c), c := (· = oddOnes (mux t.task.c)) },
      { i := .muxnc f, r := (· = mux (!t.task.c)), c := (· = oddOnes (mux (!t.task.c))) },
      { i := .muxz f, r := (· = mux t.task.z), c := (· = oddOnes (mux t.task.z)) },
      { i := .muxnz f, r := (· = mux (!t.task.z)), c := (· = oddOnes (mux (!t.task.z))) }] : List DResult),
      g.holds s t o.d f.wz f.wc

/-- ROR, ROL, SHR, SHL, RCR, RCL, SAR, REV by b = S[4:0], bit by bit where that says it best; Z by the default rule; C is
the end bit of D for b of 0 or 1 and open above (R555, R573 to R580, from general knowledge, log 13, log 18). -/
def Obligations.ShiftInstructionResults : Prop :=
  ∀ (s t : State) (f : Dual) (o : Operands), s.stage4 f.cond (.reg f.d) (si f.i f.s) o t →
    let D := o.dv
    let b := (bits o.sv 0 5).toNat
    ∀ g ∈ ([
      { i := .ror f, r := (· = (D >>> b) ||| (D <<< (32 - b))), c := fun c => b ≤ 1 → c = D.getLsbD 0 },
      { i := .rol f, r := (· = (D <<< b) ||| (D >>> (32 - b))), c := fun c => b ≤ 1 → c = D.getLsbD 31 },
      { i := .shr f, r := (· = D >>> b), c := fun c => b ≤ 1 → c = D.getLsbD 0 },
      { i := .shl f, r := (· = D <<< b), c := fun c => b ≤ 1 → c = D.getLsbD 31 },
      { i := .rcr f, r := fun r => ∀ k < 32, r.getLsbD k = (if k + b < 32 then D.getLsbD (k + b) else t.task.c),
        c := fun c => b ≤ 1 → c = D.getLsbD 0 },
      { i := .rcl f, r := fun r => ∀ k < 32, r.getLsbD k = (if k < b then t.task.c else D.getLsbD (k - b)),
        c := fun c => b ≤ 1 → c = D.getLsbD 31 },
      { i := .sar f, r := fun r => ∀ k < 32, r.getLsbD k = (D.getLsbD (min (k + b) 31)),
        c := fun c => b ≤ 1 → c = D.getLsbD 0 },
      { i := .rev f, r := fun r => ∀ k < 32, r.getLsbD k = (decide (k + b < 32) && D.getLsbD (31 - (k + b))),
        c := fun c => b ≤ 1 → c = D.getLsbD 0 }] : List DResult),
      g.holds s t o.d f.wz f.wc

/-- MOV, NOT, ABS, NEG, NEGC, NEGNC, NEGZ, NEGNZ; Z by the default rule; C is S[31] for MOV and ABS and open for the
others (R581 to R588; MOV and NEG by the source's examples, the rest from general knowledge, log 13, log 14). MIN, MAX,
MINS, MAXS, INCMOD, DECMOD, CMPSUB: the result and C; Z is open for the four limits, and for CMPSUB when D is 0 and
below S, else by the default rule (R601 to R604, R607 to R609, from general knowledge, log 13, log 14, log 16). -/
def Obligations.MoveAndLimitResults : Prop :=
  ∀ (s t : State) (f : Dual) (o : Operands), s.stage4 f.cond (.reg f.d) (si f.i f.s) o t →
    let S := o.sv
    let D := o.dv
    ∀ g ∈ ([
      { i := .mov f, r := (· = S), c := (· = S.getLsbD 31) },
      { i := .not f, r := (· = ~~~S) },
      { i := .abs f, r := (· = if S.getLsbD 31 then 0 - S else S), c := (· = S.getLsbD 31) },
      { i := .neg f, r := (· = 0 - S) },
      { i := .negc f, r := (· = if t.task.c then 0 - S else S) },
      { i := .negnc f, r := (· = if t.task.c then S else 0 - S) },
      { i := .negz f, r := (· = if t.task.z then 0 - S else S) },
      { i := .negnz f, r := (· = if t.task.z then S else 0 - S) },
      { i := .min f, r := (· = if D.toNat < S.toNat then S else D), z := fun _ _ => True,
        c := (· = decide (D.toNat < S.toNat)) },
      { i := .max f, r := (· = if S.toNat < D.toNat then S else D), z := fun _ _ => True },
      { i := .mins f, r := (· = if D.toInt < S.toInt then S else D), z := fun _ _ => True,
        c := (· = decide (D.toInt < S.toInt)) },
      { i := .maxs f, r := (· = if S.toInt < D.toInt then S else D), z := fun _ _ => True },
      { i := .incmod f, r := (· = if D = S then 0 else D + 1), c := (· = decide (D = S)) },
      { i := .decmod f, r := (· = if D = 0 then S else D - 1), c := (· = decide (D = 0)) },
      { i := .cmpsub f, r := (· = if S.toNat ≤ D.toNat then D - S else D),
        z := fun r z => (D.toNat < S.toNat ∧ D = 0) ∨ z = decide (r = 0),
        c := (· = decide (S.toNat ≤ D.toNat)) }] : List DResult),
      g.holds s t o.d f.wz f.wc

/-- ADD, SUB, their extended, signed and conditional forms, ADDABS, SUBABS, SUBR: the result modulo 2^32; carry or
borrow in C where the spec gives it, else open; Z by the default rule, and for the extended forms as far as R554 fixes
it (R589 to R600, R605, R606, R610; ADD by the source's examples, the rest from general knowledge, log 13, log 14, log
16). -/
def Obligations.SumInstructionResults : Prop :=
  ∀ (s t : State) (f : Dual) (o : Operands), s.stage4 f.cond (.reg f.d) (si f.i f.s) o t →
    let D := o.dv
    let S := o.sv
    let A := if S.getLsbD 31 then 0 - S else S
    let X := (BitVec.ofBool t.task.c).setWidth 32
    let extZ := fun (r : Word) (z : Bool) => (r ≠ 0 → z = false) ∧ (r = 0 → t.task.z = true → z = true)
    ∀ g ∈ ([
      { i := .add f, r := (· = D + S), c := (· = decide (2 ^ 32 ≤ D.toNat + S.toNat)) },
      { i := .sub f, r := (· = D - S), c := (· = decide (D.toNat < S.toNat)) },
      { i := .addx f, r := (· = D + S + X), z := extZ, c := (· = decide (2 ^ 32 ≤ D.toNat + S.toNat + X.toNat)) },
      { i := .subx f, r := (· = D - S - X), z := extZ, c := (· = decide (D.toNat < S.toNat + X.toNat)) },
      { i := .adds f, r := (· = D + S) },
      { i := .subs f, r := (· = D - S) },
      { i := .addsx f, r := (· = D + S + X), z := extZ },
      { i := .subsx f, r := (· = D - S - X), z := extZ },
      { i := .sumc f, r := (· = if t.task.c then D - S else D + S) },
      { i := .sumnc f, r := (· = if t.task.c then D + S else D - S) },
      { i := .sumz f, r := (· = if t.task.z then D - S else D + S) },
      { i := .sumnz f, r := (· = if t.task.z then D + S else D - S) },
      { i := .addabs f, r := (· = D + A) },
      { i := .subabs f, r := (· = D - A) },
      { i := .subr f, r := (· = S - D), c := (· = decide (S.toNat < D.toNat)) }] : List DResult),
      g.holds s t o.d f.wz f.wc

/-- DECOD2, DECOD3, DECOD4, DECOD5: the decoded bit, with the upper bits open (R613 to R616, from general knowledge, log
13, log 17). MUL and SCL take two clocks; their result, which the spec does not give, is open (R611, R612, U24).
ONECNT and ZERCNT count the ones and zeros of S in two clocks (R619, R620, from general knowledge, log 13); ENCOD and
BLMASK write an open result and Z follows it (R617, R618, U24); none has a C control. INCPAT and DECPAT write an open
result and an open C (R621, R622, U24) and have no Z control. That MUL, SCL, ENCOD, BLMASK, INCPAT and DECPAT run, which
those rules call refused, is the model's choice (log 15). -/
def Obligations.CountAndDecodeResults : Prop :=
  (∀ (s t : State) (f : Dual) (o : Operands), s.stage4 f.cond (.reg f.d) (si f.i f.s) o t →
     let S := o.sv
     ∀ g ∈ ([
       { i := .mul f, r := fun _ => True, stall := 1 },
       { i := .scl f, r := fun _ => True, stall := 1 },
       { i := .decod2 f, r := fun r => bits r 0 4 = 1#4 <<< (bits S 0 2).toNat },
       { i := .decod3 f, r := fun r => bits r 0 8 = 1#8 <<< (bits S 0 3).toNat },
       { i := .decod4 f, r := fun r => bits r 0 16 = 1#16 <<< (bits S 0 4).toNat },
       { i := .decod5 f, r := (· = 1#32 <<< (bits S 0 5).toNat) }] : List DResult),
       g.holds s t o.d f.wz f.wc)
    ∧ ((∀ (s t : State) (f : DualZ) (o : Operands), s.stage4 f.cond (.reg f.d) (si f.i f.s) o t →
         let ones := (List.range 32).countP (o.sv.getLsbD ·)
         ∀ g ∈ ([
           { i := .onecnt f, r := (· = BitVec.ofNat 32 ones), stall := 1 },
           { i := .zercnt f, r := (· = BitVec.ofNat 32 (32 - ones)), stall := 1 },
           { i := .encod f, r := fun _ => True },
           { i := .blmask f, r := fun _ => True }] : List DResult),
           g.holds s t o.d f.wz false)
         ∧ ∀ (s t : State) (f : DualC) (o : Operands), s.stage4 f.cond (.reg f.d) (si f.i f.s) o t →
           ∀ g ∈ ([
             { i := .incpat f, r := fun _ => True },
             { i := .decpat f, r := fun _ => True }] : List DResult),
             g.holds s t o.d false f.wc)

/-- SETNIB, SETBYTE, SETWORD, SETS, SETD, SETI replace one field of D and keep the other bits; GETNIB, GETBYTE, GETWORD
move a field of S to the bottom, upper bits open; SETWRDS, SETBYTS, ROLNIB, ROLBYTE, ROLWORD, MOVBYTS, PACKRGB, UNPKRGB
build D from parts. None writes a flag (R627 to R636, R638 to R644; SETNIB, MOVBYTS, PACKRGB by the source, most others
from general knowledge, log 13, log 17). -/
def Obligations.FieldInstructionResults : Prop :=
  ∀ (s t : State) (f : DualP) (n3 : BitVec 3) (n2 : BitVec 2) (n1 : BitVec 1) (o : Operands),
      s.stage4 f.cond (.reg f.d) (si f.i f.s) o t →
    let D := o.dv
    let S := o.sv
    let put := fun (lo n : Nat) (r : Word) => ∀ k < 32, r.getLsbD k = if lo ≤ k
        ∧ k < lo + n then S.getLsbD (k - lo) else D.getLsbD k
    ∀ g ∈ ([
      { i := .setnib n3 f, r := put (4 * n3.toNat) 4 },
      { i := .setbyte n2 f, r := put (8 * n2.toNat) 8 },
      { i := .setword n1 f, r := put (16 * n1.toNat) 16 },
      { i := .sets f, r := put 0 9 },
      { i := .setd f, r := put 9 9 },
      { i := .seti f, r := put 23 9 },
      { i := .getnib n3 f, r := fun r => bits r 0 4 = bits S (4 * n3.toNat) 4 },
      { i := .getbyte n2 f, r := fun r => bits r 0 8 = bits S (8 * n2.toNat) 8 },
      { i := .getword n1 f, r := fun r => bits r 0 16 = bits S (16 * n1.toNat) 16 },
      { i := .setwrds f, r := (· = bits S 0 16 ++ bits S 0 16) },
      { i := .setbyts f, r := (· = (bits S 0 8).setWidth 32 * 0x01010101) },
      { i := .rolnib f, r := (· = (D <<< 4) ||| (bits S 0 4).setWidth 32) },
      { i := .rolbyte f, r := (· = (D <<< 8) ||| (bits S 0 8).setWidth 32) },
      { i := .rolword f, r := (· = (D <<< 16) ||| (bits S 0 16).setWidth 32) },
      { i := .movbyts f, r := fun r => ∀ k < 4, bits r (8 * k) 8 = bits D (8 * (bits S (2 * k) 2).toNat) 8 },
      { i := .packrgb f, r := (· = 0#1 ++ (bits S 19 5 ++ (bits S 11 5 ++ (bits S 3 5 ++ bits D 16 16)))) },
      { i := .unpkrgb f, r := fun r => bits r 19 5 = bits S 10 5 ∧ bits r 11 5 = bits S 5 5 ∧ bits r 3 5 = bits S 0 5
          ∧ bits r 24 8 = 0 }] : List DResult),
      g.holds s t o.d false false

/-- TESTB, TESTN, TEST, CMP, CMPX, CMPS, CMPSX, CMPR write flags only: Z tells a zero result (for the extended forms as
far as R554 fixes it), C parity or borrow where the spec gives it (R645 to R652, from general knowledge, log 13, log 14,
log 16). -/
def Obligations.TestInstructionFlags : Prop :=
  ∀ (s t : State) (f : Dual) (o : Operands), s.stage4 f.cond (.reg f.d) (si f.i f.s) o t →
    let D := o.dv
    let S := o.sv
    let X := (BitVec.ofBool t.task.c).setWidth 32
    let extZ := fun z : Bool => (D - S - X ≠ 0 → z = false) ∧ (D - S - X = 0 → t.task.z = true → z = true)
    ∀ g ∈ ([
      { i := .testb f, z := (· = decide (D &&& (1#32 <<< (bits S 0 5).toNat) = 0)) },
      { i := .testn f, z := (· = decide (D &&& ~~~S = 0)), c := (· = oddOnes (D &&& ~~~S)) },
      { i := .test f, z := (· = decide (D &&& S = 0)), c := (· = oddOnes (D &&& S)) },
      { i := .cmp f, z := (· = decide (D = S)), c := (· = decide (D.toNat < S.toNat)) },
      { i := .cmpx f, z := extZ, c := (· = decide (D.toNat < S.toNat + X.toNat)) },
      { i := .cmps f, z := (· = decide (D = S)), c := (· = decide (D.toInt < S.toInt)) },
      { i := .cmpsx f, z := extZ },
      { i := .cmpr f, z := (· = decide (D = S)), c := (· = decide (S.toNat < D.toNat)) }] : List FlagResult),
      g.holds s t f.wz f.wc

/-- BINGRY and GRYBIN, to and from the reflected Gray code (R656, R657, from general knowledge, log 13), and INCD, DECD,
INCDS, DECDS (R662 to R665); Z by the default rule, C open. The instructions whose result format the spec does not know,
and GETLFSR, run all the same: they write some D, Z follows it, C is some value where they can write it (R551, R623 to
R626, R637, R653 to R655, R658 to R661; that they run is the model's choice, log 15, log 32). -/
def Obligations.UnaryAndOpenResults : Prop :=
  (∀ (s t : State) (f : SingleZC) (o : Operands), s.stage4 f.cond (.reg f.d) (.raw 0) o t →
     let D := o.dv
     ∀ g ∈ ([
       { i := .bingry f, r := fun r => ∀ k < 32, r.getLsbD k = (D.getLsbD k ^^ D.getLsbD (k + 1)) },
       { i := .grybin f, r := fun r => r.getLsbD 31 = D.getLsbD 31 ∧ ∀ k < 31,
           r.getLsbD k = (r.getLsbD (k + 1) ^^ D.getLsbD k), stall := 1 },
       { i := .incd f, r := (· = D + 0x200) },
       { i := .decd f, r := (· = D - 0x200) },
       { i := .incds f, r := (· = D + 0x201) },
       { i := .decds f, r := (· = D - 0x201) }] : List DResult),
       g.holds s t o.d f.wz f.wc)
    ∧ ((∀ (s t : State) (f : DualP) (o : Operands), s.stage4 f.cond (.reg f.d) (si f.i f.s) o t →
         ∀ i ∈ [.splitb f, .mergeb f, .splitw f, .mergew f, .setx f, .mergen f, .splitn f],
           DResult.holds { i := i, r := fun _ => True } s t o.d false false)
         ∧ ∀ (s t : State) (f : SingleZC) (o : Operands), s.stage4 f.cond (.reg f.d) (.raw 0) o t →
           ∀ i ∈ [.getlfsr f, .binbcd f, .bcdbin f, .eswap4 f, .eswap8 f, .seussf f, .seussr f],
             DResult.holds { i := i, r := fun _ => True } s t o.d f.wz f.wc)

/-- What the arithmetic, logic, bit and field instructions leave alone, when they go on: all memory, every register but
D, AUX, the other tasks, the flags not asked for, every pointer, accumulator, special register and unit; INDA and INDB
change by their own operands only, the WIDE registers only where D lies under their window. The tests write no register
at all. And what reading and writing a register is, through which every operand and every D result passes: a write stores
the value at $000 to $1F1 and $1F8 to $1FF, nothing at $1F4 to $1F7, in the WIDE register too where the address lies in the
mapped window, sets the last-written-D latch, and changes nothing else (R37, R53); a read with no WIDE hazard open (R1003,
R1004) gives the WIDE register in the window, else register RAM, the pins, OUT or DIR (R36, R38). $1F2 and $1F3 are
open to a read and refused to a write (U7). -/
def Obligations.AluInstructionsFrame : Prop :=
  let kept (s t : State) (cond : BitVec 4) (d : RegAddr) (su : SUse) (i : Instr) (regs : Bool) (wz wc : Bool) : Prop :=
    s.enters → exec i s = .next t →
      s.frame t nowhere (fun a => regs = true ∧ a = s.cog.dAddr cond (.reg d)) nowhere wz wc
        ∧ s.cog.sameUnits t.cog
        ∧ t.cog.inda = s.cog.inda.step (indModifier cond (.reg d) su 0x1F2#9)
        ∧ t.cog.indb = s.cog.indb.step (indModifier cond (.reg d) su 0x1F3#9)
        ∧ (inWindow s.cog.wide.base s.cog.wide.mapped (s.cog.dAddr cond (.reg d)) = false ∨ regs = false →
            t.cog.wide.regs = s.cog.wide.regs)
        ∧ (t.cog.tasks.get s.cog.cur).stack = s.task.stack
  (∀ (c : Cog) (a : RegAddr) (v : Word),
      let w := c.writeReg a v
      let pins : Prop := 0x1F4 ≤ a.toNat ∧ a.toNat < 0x1F8
      w.lastD = v
        ∧ (a.toNat < 0x1F2 ∨ 0x1F8 ≤ a.toNat → w.stored a = v)
        ∧ (∀ b, b ≠ a ∨ pins → w.stored b = c.stored b)
        ∧ (∀ k : Fin 8, w.wide.regs.get k
            = if c.wide.mapped = true ∧ a.toNat = c.wide.base.toNat + k.val then v else c.wide.regs.get k)
        ∧ ({ w with ram := c.ram, rom := c.rom, lastD := c.lastD, wide := { w.wide with regs := c.wide.regs },
                    ports := { w.ports with out := c.ports.out, dir := c.ports.dir } } : Cog) = c)
    ∧ (∀ (s : State) (c : Cog) (a : RegAddr),
      (∀ o ∈ c.wide.olds, o.left = 0) → (∀ o ∈ c.wide.oldWindows, o.left = 0) → c.wide.moveLeft = 0 →
      let window (k : Fin 8) : Prop := c.wide.mapped = true ∧ a.toNat = c.wide.base.toNat + k.val
      (∀ k, window k → s.readReg c a = c.wide.regs.get k)
        ∧ ((∀ k, ¬window k) →
            (a.toNat < 0x1F2 ∨ 0x1F8 ≤ a.toNat → s.readReg c a = c.stored a)
              ∧ ∀ p : Fin 4, (a.toNat = 0x1F4 + p.val → s.readReg c a = s.pinLong c p)
                ∧ (a.toNat = 0x1F8 + p.val → s.readReg c a = c.ports.out.get p)
                ∧ (a.toNat = 0x1FC + p.val → s.readReg c a = c.ports.dir.get p)))
    ∧ ∀ (s t : State),
    (∀ f : Dual, ∀ i ∈ [.isob f, .notb f, .clrb f, .setb f, .setbc f, .setbnc f, .setbz f, .setbnz f, .andn f, .and f,
        .or f, .xor f,
       .muxc f, .muxnc f, .muxz f, .muxnz f, .ror f, .rol f, .shr f, .shl f, .rcr f, .rcl f, .sar f, .rev f, .mov f,
       .not f, .abs f, .neg f, .negc f, .negnc f, .negz f, .negnz f, .add f, .sub f, .addx f, .subx f, .adds f,
       .subs f, .addsx f, .subsx f, .sumc f, .sumnc f, .sumz f, .sumnz f, .min f, .max f, .mins f, .maxs f, .addabs f,
       .subabs f, .incmod f, .decmod f, .cmpsub f, .subr f, .mul f, .scl f, .decod2 f, .decod3 f, .decod4 f,
       .decod5 f],
      kept s t f.cond f.d (si f.i f.s) i true f.wz f.wc)
    ∧ (∀ f : Dual, ∀ i ∈ [.testb f, .testn f, .test f, .cmp f, .cmpx f, .cmps f, .cmpsx f, .cmpr f],
      kept s t f.cond f.d (si f.i f.s) i false f.wz f.wc)
    ∧ (∀ f : DualZ, ∀ i ∈ [.encod f, .blmask f, .onecnt f, .zercnt f], kept s t f.cond f.d (si f.i f.s) i true f.wz false)
    ∧ (∀ f : DualC, ∀ i ∈ [.incpat f, .decpat f], kept s t f.cond f.d (si f.i f.s) i true false f.wc)
    ∧ (∀ (f : DualP) (n3 : BitVec 3) (n2 : BitVec 2) (n1 : BitVec 1), ∀ i ∈ [.splitb f, .mergeb f, .splitw f, .mergew f,
        .getnib n3 f, .setnib n3 f, .getword n1 f, .setword n1 f,
       .setwrds f, .rolnib f, .rolbyte f, .rolword f, .sets f, .setd f, .setx f, .seti f, .getbyte n2 f,
       .setbyte n2 f, .setbyts f, .movbyts f, .packrgb f, .unpkrgb f, .mergen f, .splitn f],
      kept s t f.cond f.d (si f.i f.s) i true false false)
    ∧ ∀ f : SingleZC, ∀ i ∈ [.getlfsr f, .binbcd f, .bcdbin f, .bingry f, .grybin f, .eswap4 f, .eswap8 f, .seussf f,
        .seussr f, .incd f,
       .decd f, .incds f, .decds f],
      kept s t f.cond f.d (.raw 0) i true f.wz f.wc

/-! ### Hub memory -/

/-- A pointer expression S U P NNNNNN evaluates as R241 says, for PTRA and PTRB, and moves no other pointer; a register
gives its low 18 bits and moves none (R231, R240, R241; that U = 0 with P = 1 uses the pointer unchanged is R243 (a)).
An AUX operand: a register's low eight bits, a constant below $100, or a pointer expression S U P NNNNN evaluated as
R352 says (R350 to R352). -/
def Obligations.PointerExpressionEvaluation : Prop :=
  (∀ (c : Cog) (f : RegAddr) (scale : Nat),
     let ptr := if f.getLsbD 8 then c.ptrb else c.ptra
     let moved : HubAddr := BitVec.ofInt 18 (ptr.toInt + (bits f 0 6).toInt * scale)
     (c.hubUse true (f.setWidth 32) scale).addr = (if f.getLsbD 6 then ptr else moved)
       ∧ (c.hubUse true (f.setWidth 32) scale).cog =
           (if f.getLsbD 7 then (if f.getLsbD 8 then { c with ptrb := moved } else { c with ptra := moved }) else c)
       ∧ ∀ v, (c.hubUse false v scale).addr = bits v 0 18 ∧ (c.hubUse false v scale).cog = c)
    ∧ (∀ (c : Cog) (f : RegAddr) (v : Word),
         let ptr := if f.getLsbD 7 then c.ptry else c.ptrx
         let moved : Byte := BitVec.ofInt 8 (ptr.toInt + (bits f 0 5).toInt)
         (c.auxUse false v).addr = bits v 0 8 ∧ (c.auxUse false v).cog = c
           ∧ (f.getLsbD 8 = false → (c.auxUse true (f.setWidth 32)).addr = bits f 0 8 ∧ (c.auxUse true (f.setWidth 32)).cog = c)
           ∧ (f.getLsbD 8 = true →
               (c.auxUse true (f.setWidth 32)).addr = (if f.getLsbD 5 then ptr else moved)
               ∧ (c.auxUse true (f.setWidth 32)).cog =
                 (if f.getLsbD 6 then (if f.getLsbD 7 then { c with ptry := moved } else { c with ptrx := moved }) else c)))

/-- RDBYTE, RDWORD, RDLONG in their hub cycle write D with the byte, the aligned word or the aligned long, little-endian
and zero-extended (the extension is the model's presumption G1, log 49), move the pointer, set Z by the default rule and
an open C, and hold stage 4 for two clocks more; before it they wait. POPA and POPB are the long read at PTRx - 4 that
lowers the pointer (R123, R126, R139, R202, R231, R244, R246, R248). A pending AUGS is excluded (U31). -/
def Obligations.HubReadResults : Prop :=
  let bytesAt (t : State) (a n : Nat) (v : Word) : Prop :=
    ∀ k < 4, bits v (8 * k) 8 = if k < n then t.hub.mem.byte (a / n * n + k) else 0
  (∀ (s t : State) (f : Dual) (o : Operands), s.stage4 f.cond (.reg f.d) (hubS f.i f.s) o t →
      (f.i = true → t.task.augs = none) →
      ∀ g ∈ ([(.rdbyte f, 1), (.rdword f, 2), (.rdlong f, 4)] : List (Instr × Nat)),
        let u := t.cog.hubUse f.i o.sv g.2
        Out.inHubCycle (exec g.1 s) t o (∃ v c, bytesAt t u.addr.toNat g.2 v ∧
          Out.delivers (exec g.1 s) o.d (t.ends ((u.cog.setFlags f.wz f.wc (decide (v = 0)) c).writeReg o.d v) 2)))
    ∧ ∀ (s t : State) (f : SingleZC) (o : Operands) (b : Bool),
      s.stage4 f.cond (.reg f.d) (.raw (if b then 0x1BF else 0x0BF)) o t → t.task.augs = none →
      o.sv = (if b then 0x1BF else 0x0BF) →
      let p := (if b then t.cog.ptrb else t.cog.ptra) - 4
      let c1 := if b then { t.cog with ptrb := p } else { t.cog with ptra := p }
      let i : Instr := if b then .popb f else .popa f
      Out.inHubCycle (exec i s) t o (∃ v c, bytesAt t p.toNat 4 v ∧
        Out.delivers (exec i s) o.d (t.ends ((c1.setFlags f.wz f.wc (decide (v = 0)) c).writeReg o.d v) 2))

/-- RDBYTEC, RDWORDC, RDLONGC: on a hit they take the value from the cached line in one clock, without the hub; on a
miss they wait for the hub cycle, load the line, and write D with what hub memory holds there (R140, R141, R245, R247,
R249; the zero extension of bytes and words is the model's presumption G1, log 49). A pending AUGS is excluded (U31). -/
def Obligations.CachedReadResults : Prop :=
  ∀ (s t : State) (f : Dual) (o : Operands), s.stage4 f.cond (.reg f.d) (hubS f.i f.s) o t →
    (f.i = true → t.task.augs = none) →
    ∀ g ∈ ([(.rdbytec f, 1), (.rdwordc f, 2), (.rdlongc f, 4)] : List (Instr × Nat)),
      let u := t.cog.hubUse f.i o.sv g.2
      let a := u.addr.toNat / g.2 * g.2
      let lineByte (k : Nat) : Byte := bits (t.cog.wide.regs.get (bits u.addr 2 3).toFin) (8 * ((a + k) % 4)) 8
      let writes (c1 : Cog) (byteOf : Nat → Byte) (stall : Nat) : Prop :=
        ∃ v c, (∀ k < 4, bits v (8 * k) 8 = if k < g.2 then byteOf k else 0)
          ∧ Out.delivers (exec g.1 s) o.d (t.ends ((c1.setFlags f.wz f.wc (decide (v = 0)) c).writeReg o.d v) stall)
      ((t.cog.wide.valid && bits u.addr 5 13 == t.cog.wide.tag) = true → writes u.cog lineByte 0)
        ∧ ((t.cog.wide.valid && bits u.addr 5 13 == t.cog.wide.tag) = false →
            Out.inHubCycle (exec g.1 s) t o
              (writes (u.cog.reload t.hub.mem u.addr) (fun k => t.hub.mem.byte (a + k)) 2))

/-- WRBYTE, WRWORD, WRLONG complete in their hub cycle, move the pointer, and otherwise change only the bytes they store:
the low bytes of D, little-endian, at the aligned address; in the ROM they store nothing. Before the hub cycle they wait.
PUSHA and PUSHB are the long write at PTRx that raises the pointer (R123, R126, R202, R231, R250 to R252; ROM: decision
D17, log 4). A pending AUGS is excluded (U31). -/
def Obligations.HubWriteResults : Prop :=
  let stored (s u : State) (a n : Nat) (v : Word) : Prop :=
    (0x00E00 ≤ a → ∀ k < n, u.hub.mem.byte (a + k) = bits v (8 * k) 8)
      ∧ s.frame u (fun b => 0x00E00 ≤ a ∧ a ≤ b ∧ b < a + n) nowhere nowhere false false
  (∀ (s t : State) (f : DualL) (o : Operands), s.stage4 f.cond (dl f.l f.d) (hubS f.i f.s) o t →
      (f.i = true → t.task.augs = none) →
      ∀ g ∈ ([(.wrbyte f, 1), (.wrword f, 2), (.wrlong f, 4)] : List (Instr × Nat)),
        let u := t.cog.hubUse f.i o.sv g.2
        Out.inHubCycle (exec g.1 s) t o (∃ h, exec g.1 s = .next ({ t with hub := h }.ends u.cog 0)
          ∧ stored s ({ t with hub := h }.ends u.cog 0) (u.addr.toNat / g.2 * g.2) g.2 o.dv))
    ∧ ∀ (s t : State) (f : SingleL) (o : Operands) (b : Bool),
      s.stage4 f.cond (dl f.l f.d) (.raw (if b then 0x1C1 else 0x0C1)) o t → t.task.augs = none →
      o.sv = (if b then 0x1C1 else 0x0C1) →
      let p := if b then t.cog.ptrb else t.cog.ptra
      let c1 := if b then { t.cog with ptrb := p + 4 } else { t.cog with ptra := p + 4 }
      let i : Instr := if b then .pushb f else .pusha f
      Out.inHubCycle (exec i s) t o (∃ h, exec i s = .next ({ t with hub := h }.ends c1 0)
        ∧ stored s ({ t with hub := h }.ends c1 0) (p.toNat / 4 * 4) 4 o.dv)

/-- RDWIDE, RDWIDEC and WRWIDE in their hub cycle move the pointer of their expression and transfer the WIDE registers
as a whole; RDWIDEC does only the pointer update, at once, when the data cache holds the wide (R255 to R257). A pending
AUGD is excluded from the pointer form (U31). What a wide transfer moves: WIDE k is the long at the 32-byte aligned
address plus 4k, both ways; the load sets tag and valid bit and nothing else of the cache; the store changes no byte
outside the 32, and none in the ROM (R255, R257, D15; ROM: decision D17, log 4). -/
def Obligations.WideTransferResults : Prop :=
  (∀ (s t : State) (f : SingleL) (o : Operands), s.stage4 f.cond (hubD f.l f.d) (.raw 0) o t →
     (f.l = true → t.task.augd = none) →
     let u := t.cog.hubUse f.l o.dv 32
     let hit := t.cog.wide.valid && bits u.addr 5 13 == t.cog.wide.tag
     let loads (i : Instr) : Prop :=
       Out.inHubCycle (exec i s) t o (exec i s = .next (t.ends (u.cog.reload t.hub.mem u.addr) 0))
     loads (.rdwide f)
       ∧ (hit = false → loads (.rdwidec f))
       ∧ (hit = true → exec (.rdwidec f) s = .next (t.ends u.cog 0))
       ∧ Out.inHubCycle (exec (.wrwide f) s) t o
           (exec (.wrwide f) s = .next ({ t with hub := t.hub.writeWide u.addr t.cog.wide.regs }.ends u.cog 0)))
    ∧ (∀ (c : Cog) (h : Hub) (a : HubAddr) (w : Octet Word),
         let a0 := a.toNat / 32 * 32
         (∀ k : Fin 8, (c.reload h.mem a).wide.regs.get k = h.mem.long (a0 + 4 * k.val))
           ∧ (c.reload h.mem a).wide.tag = bits a 5 13 ∧ (c.reload h.mem a).wide.valid = true
           ∧ (c.reload h.mem a).wide.base = c.wide.base ∧ (c.reload h.mem a).wide.mapped = c.wide.mapped
           ∧ (0x00E00 ≤ a0 → ∀ k : Fin 8, (h.writeWide a w).mem.long (a0 + 4 * k.val) = w.get k)
           ∧ ∀ b, (b < a0 ∨ a0 + 32 ≤ b ∨ a0 < 0x00E00) → (h.writeWide a w).mem.byte b = h.mem.byte b)

/-- SETWIDE and SETWIDZ set the window base and whether it is mapped from nine and three bits of D, SETWIDZ also clears
the eight WIDE registers and leaves the cache as it is (decision D11, U9, log 57); over $1F0 and $1F8 they are refused
(U35). DCACHEX clears the valid bit and nothing else (R260 to R262). Old windows are kept for the read hazard of R1004,
and behind a reload the contents that SETWIDZ cleared for that of R1003 (log 10). ICACHEX makes all four instruction
cache lines invalid, ICACHEP and ICACHEN switch prefetch on and off (R540 to R542). -/
def Obligations.CacheAndWindowControl : Prop :=
  ((∀ (s t : State) (f : SingleL) (o : Operands), s.stage4 f.cond (dl f.l f.d) (.raw 0) o t →
       let overPorts := bits o.dv 0 9 = 0x1F0 ∨ bits o.dv 0 9 = 0x1F8
       let moved (w : Wide) : Cog :=
         { t.cog with wide := { w with base := bits o.dv 0 9, mapped := decide (bits o.dv 0 3 = 0), moveLeft := 3,
                                       oldWindows := (if t.cog.wide.mapped then [⟨t.cog.wide.base, 3⟩] else [])
                                         ++ t.cog.wide.oldWindows } }
       (¬overPorts → exec (.setwide f) s = .next (t.ends (moved t.cog.wide) 0)
           ∧ exec (.setwidz f) s
             = .next (t.ends (moved { t.cog.wide with
                 regs := Octet.all 0
                 olds := (match t.cog.wide.olds with | [] => [] | o1 :: _ => [⟨t.cog.wide.regs, o1.left⟩])
                   ++ t.cog.wide.olds }) 0))
         ∧ (overPorts → exec (.setwide f) s = .refused .wideWindow ∧ exec (.setwidz f) s = .refused .wideWindow))
     ∧ ∀ (s t : State) (f : Zero0) (o : Operands), s.stage4 f.cond (.raw 0) (.raw 0) o t →
       exec (.dcachex f) s = .next (t.ends { t.cog with wide := { t.cog.wide with valid := false } } 0))
    ∧ (∀ (s t : State) (f : Zero0) (o : Operands), s.stage4 f.cond (.raw 0) (.raw 0) o t →
         (∃ q, exec (.icachex f) s = .next (t.ends { t.cog with icache := q } 0)
             ∧ (∀ k : Fin 4, (q.lines.get k).valid = false) ∧ q.prefetch = t.cog.icache.prefetch)
           ∧ exec (.icachep f) s = .next (t.ends { t.cog with icache := { t.cog.icache with prefetch := true } } 0)
           ∧ exec (.icachen f) s = .next (t.ends { t.cog with icache := { t.cog.icache with prefetch := false } } 0))

/-- GETPTRA, GETPTRB read the pointer zero-extended; SETPTRx, ADDPTRx, SUBPTRx set it to, or move it by, the low 18 bits
of D modulo 2^18 (R265 to R272). LOCPTRA and LOCPTRB set it to four times a 16-bit instruction address, absolute or
relative to the instruction (R507, R508; the base of the relative form is decision D5, log 43; a pending AUGS is
excluded, U31). SETPTRx, ADDPTRx, SUBPTRx of PTRX and PTRY set the pointer to, or move it by, the low eight bits of D
modulo 256 (R362 to R367). Those of PTRY are refused while XFR runs in an AUX mode (R853, U20). -/
def Obligations.PointerInstructions : Prop :=
  ((∀ (s t : State) (f : SingleZC) (o : Operands), s.stage4 f.cond (.reg f.d) (.raw 0) o t →
       ∀ g ∈ ([{ i := .getptra f, r := (· = t.cog.ptra.setWidth 32) },
               { i := .getptrb f, r := (· = t.cog.ptrb.setWidth 32) }] : List DResult), g.holds s t o.d f.wz f.wc)
     ∧ (∀ (s t : State) (f : SingleL) (o : Operands), s.stage4 f.cond (dl f.l f.d) (.raw 0) o t →
       let v := bits o.dv 0 18
       ∀ g ∈ ([(.setptra f, { t.cog with ptra := v }), (.setptrb f, { t.cog with ptrb := v }),
               (.addptra f, { t.cog with ptra := t.cog.ptra + v }), (.addptrb f, { t.cog with ptrb := t.cog.ptrb + v }),
               (.subptra f, { t.cog with ptra := t.cog.ptra - v }), (.subptrb f, { t.cog with ptrb := t.cog.ptrb - v })] :
               List (Instr × Cog)), exec g.1 s = .next (t.ends g.2 0))
     ∧ ∀ (s t : State) (f : Big) (o : Operands), s.stage4 f.cond (.raw 0) (.raw 0) o t → t.task.augs = none →
       let p (a : Addr) : HubAddr := a.setWidth 18 <<< 2
       ∀ g ∈ ([(.locptraAbs f, { t.cog with ptra := p f.n }), (.locptraRel f, { t.cog with ptra := p (t.task.pc + f.n) }),
               (.locptrbAbs f, { t.cog with ptrb := p f.n }), (.locptrbRel f, { t.cog with ptrb := p (t.task.pc + f.n) })] :
               List (Instr × Cog)), exec g.1 s = .next (t.ends g.2 0))
    ∧ (∀ (s t : State) (f : SingleL) (o : Operands), s.stage4 f.cond (dl f.l f.d) (.raw 0) o t →
         let v := bits o.dv 0 8
         (∀ g ∈ ([(.setptrx f, v), (.addptrx f, t.cog.ptrx + v), (.subptrx f, t.cog.ptrx - v)] : List (Instr × Byte)),
             exec g.1 s = .next (t.ends { t.cog with ptrx := g.2 } 0))
           ∧ ∀ g ∈ ([(.setptry f, v), (.addptry f, t.cog.ptry + v), (.subptry f, t.cog.ptry - v)] : List (Instr × Byte)),
             (t.cog.xfr.usesAux = false → exec g.1 s = .next (t.ends { t.cog with ptry := g.2 } 0))
               ∧ (t.cog.xfr.usesAux = true → exec g.1 s = .refused .auxBusy))

/-! ### Hub control -/

/-- COGNEW in its hub cycle starts the lowest-numbered idle cog and returns its number with C = 0, or, with none idle,
an open D and C = 1; COGINIT starts the cog it names, and of its own cog it is the last instruction. A start loads $1F4
longs from the program address, sets PTRA to 18 bits of S and PTRB to the program address, keeps AUX and the port D
outputs still on their way (R942), and takes 1,017 clocks (R291, R292, R296, D20; the whole image read at once and the
number of clocks to the result are log 44). The registers of a started cog are the longs of its program: register i
below $1F4 is the hub long at the program address plus 4i, modulo 2^18 (R296); it is marked where that is a ROM long
that must not execute (R124). -/
def Obligations.CogStartResults : Prop :=
  (let started (t : State) (k : Fin 8) (pgm par : Word) : State :=
     { t with cogs := t.cogs.set k (Cog.start (.loading 1017) (loadImage t.hub.mem (bits pgm 0 18 &&& 0x3FFFC) 0x1F4 0)
         (romRegisters (bits pgm 0 18 &&& 0x3FFFC) 0x1F4) (t.cogs.get k).aux (t.cogs.get k).ports (bits par 0 18) (bits pgm 0 18 &&& 0x3FFFC) t.hub.hist.length) }
   (∀ (s t : State) (f : DualC) (o : Operands), s.stage4 f.cond (.reg f.d) (si f.i f.s) o t →
       Out.inHubCycle (exec (.cognew f) s) t o
         ((∀ k : Fin 8, (t.cogs.get k).run = .idle → (∀ j, j < k → (t.cogs.get j).run ≠ .idle) →
             Out.delivers (exec (.cognew f) s) o.d
               ((started t k o.dv o.sv).wrote o.d (BitVec.ofNat 32 k.val) false f.wc false false 1))
           ∧ ((∀ j : Fin 8, (t.cogs.get j).run ≠ .idle) →
               ∃ r, Out.delivers (exec (.cognew f) s) o.d (t.wrote o.d r false f.wc false true 1))))
     ∧ ∀ (s t : State) (n : BitVec 3) (f : DualP) (o : Operands), s.stage4 f.cond (.reg f.d) (si f.i f.s) o t →
       Out.inHubCycle (exec (.coginit n f) s) t o
         ((n.toFin ≠ t.cur → exec (.coginit n f) s
             = .next ((started t n.toFin o.dv o.sv).ends (started t n.toFin o.dv o.sv).cog 0))
           ∧ (n.toFin = t.cur → exec (.coginit n f) s = .next (started t n.toFin o.dv o.sv))))
    ∧ (∀ (s : State) (k : Fin 8) (pgm par : Word) (i : RegAddr), i.toNat < 0x1F4 →
         let a := ((bits pgm 0 18 &&& 0x3FFFC) + BitVec.ofNat 18 (4 * i.toNat)).toNat
         ((s.startCog k pgm par).cogs.get k).stored i = s.hub.mem.long a
           ∧ ((s.startCog k pgm par).cogs.get k).rom.getLsbD i.toNat = decide (8 ≤ a ∧ a < 0x00E00))

/-- COGID in its hub cycle returns the cog's number, or with WC tells in C whether cog D[2:0] is not idle; COGSTOP stops
cog D[2:0] and of its own cog is the last instruction; CLKSET writes nine bits of D to CLK, is refused where they select
a clock source that is off (U39: the PLL with PLL mode or XI off, XTAL with XI off), and with bit 8 set resets the chip: all cogs stop, CLK and locks are cleared, cog 0 starts from $00E00 and hub memory stays (R297, R298, R300,
R990, R991; only the low three bits name a cog: U38, log 44; what comes after the reset: log 1, log 45). In the hub
cycle LOCKNEW takes the lowest-numbered free lock and returns its number with C = 0, or, with none free, an open D and C
= 1; LOCKRET frees lock D[2:0]; LOCKSET and LOCKCLR write lock D[2:0] and return its prior state in C (R303 to R306,
D21; only the low three bits name a lock: R307, log 44). -/
def Obligations.CogClockAndLockControl : Prop :=
  ((∀ (s t : State) (f : SingleZC) (o : Operands), s.stage4 f.cond (.reg f.d) (.raw 0) o t →
       Out.inHubCycle (exec (.cogid f) s) t o
         ((f.wc = false → Out.delivers (exec (.cogid f) s) o.d
             (t.wrote o.d (BitVec.ofNat 32 t.cur.val) f.wz false (decide (t.cur = 0)) false 1))
           ∧ (f.wc = true → ∃ z, exec (.cogid f) s = .next (t.ends (t.cog.setFlags f.wz true z
               (decide ((t.cogs.get (bits o.dv 0 3).toFin).run ≠ .idle))) 1))))
     ∧ ∀ (s t : State) (f : SingleL) (o : Operands), s.stage4 f.cond (dl f.l f.d) (.raw 0) o t →
       let n : Fin 8 := (bits o.dv 0 3).toFin
       let off (v : Word) : Prop := bits v 1 1 = 1 ∧ (bits v 2 2 = 0 ∨ (bits v 0 1 = 1 ∧ bits v 4 4 = 0))
       let stopped : State := { t with cogs := t.cogs.set n (Cog.stopped (t.cogs.get n).aux (t.cogs.get n).ports) }
       Out.inHubCycle (exec (.cogstop f) s) t o
           ((n ≠ t.cur → exec (.cogstop f) s = .next (stopped.ends stopped.cog 0))
             ∧ (n = t.cur → exec (.cogstop f) s = .next stopped))
         ∧ Out.inHubCycle (exec (.clkset f) s) t o
           ((o.dv.getLsbD 8 = false → ¬off o.dv → exec (.clkset f) s
               = .next ({ t with hub := { t.hub with clk := bits o.dv 0 9 } }.ends t.cog 0))
             ∧ (o.dv.getLsbD 8 = false → off o.dv → exec (.clkset f) s = .refused .clockSource)
             ∧ (o.dv.getLsbD 8 = true → ∃ u, exec (.clkset f) s = .next u ∧ u.hub.mem = t.hub.mem ∧ u.hub.clk = 0
               ∧ u.hub.lockTaken = Octet.all false ∧ u.hub.lockState = Octet.all false
               ∧ (u.cogs.get 0).run = .running ∧ (u.cogs.get 0).ptrb = 0x00E00 ∧ (u.cogs.get 0).sched.task = 0
               ∧ ∀ k : Fin 8, (u.cogs.get k).aux = (t.cogs.get k).aux ∧ (k ≠ 0 → (u.cogs.get k).run = .idle))))
    ∧ ((∀ (s t : State) (f : SingleZC) (o : Operands), s.stage4 f.cond (.reg f.d) (.raw 0) o t →
           Out.inHubCycle (exec (.locknew f) s) t o
             ((∀ k : Fin 8, t.hub.lockTaken.get k = false → (∀ j, j < k → t.hub.lockTaken.get j = true) →
                 Out.delivers (exec (.locknew f) s) o.d
                   ({ t with hub := { t.hub with lockTaken := t.hub.lockTaken.set k true } }.wrote o.d (BitVec.ofNat 32 k.val)
                     f.wz f.wc (decide (k = 0)) false 1))
               ∧ ((∀ j : Fin 8, t.hub.lockTaken.get j = true) →
                   ∃ r z, Out.delivers (exec (.locknew f) s) o.d (t.wrote o.d r f.wz f.wc z true 1))))
         ∧ (∀ (s t : State) (f : SingleL) (o : Operands), s.stage4 f.cond (dl f.l f.d) (.raw 0) o t →
           Out.inHubCycle (exec (.lockret f) s) t o (exec (.lockret f) s
             = .next ({ t with hub := { t.hub with lockTaken := t.hub.lockTaken.set (bits o.dv 0 3).toFin false } }.ends t.cog 0)))
         ∧ ∀ (s t : State) (f : SingleCL) (o : Operands), s.stage4 f.cond (dl f.l f.d) (.raw 0) o t →
           let n : Fin 8 := (bits o.dv 0 3).toFin
           ∀ g ∈ ([(.lockset f, true), (.lockclr f, false)] : List (Instr × Bool)),
             Out.inHubCycle (exec g.1 s) t o (exec g.1 s
               = .next ({ t with hub := { t.hub with lockState := t.hub.lockState.set n g.2 } }.ends
                   (t.cog.setFlags false f.wc false (t.hub.lockState.get n)) (if f.wc then 1 else 0))))

/-! ### INDA, INDB and AUX -/

/-- The eleven forms of FIXINDx and SETINDx: always executed, they set pointer and limits of INDA, of INDB or of both, and
change nothing else (R320 to R328). An indirect pointer inside its limits stays inside them under every operand modifier,
the address it names is inside them too, and FIXINDx and SETINDx leave it inside; the wrap is at the limits (R180, R330).
-/
def Obligations.IndirectPointerForms : Prop :=
  (∀ (s : State) (f : Ind),
     let fix : IndReg := ⟨f.s, BitVec.ofNat 9 (min f.s.toNat f.d.toNat), BitVec.ofNat 9 (max f.s.toNat f.d.toNat)⟩
     let free (p : RegAddr) : IndReg := ⟨p, 0x000, 0x1FF⟩
     let c := s.cog
     ∀ g ∈ ([(.fixinda f, fix, c.indb), (.fixindb f, c.inda, fix), (.fixinds f, fix, fix),
             (.setindaAbs f, free f.s, c.indb), (.setindaRel f, free (c.inda.ptr + f.s), c.indb),
             (.setindbAbs f, c.inda, free f.d), (.setindbRel f, c.inda, free (c.indb.ptr + f.d)),
             (.setindsAbsAbs f, free f.s, free f.d), (.setindsAbsRel f, free (c.inda.ptr + f.s), free f.d),
             (.setindsRelAbs f, free f.s, free (c.indb.ptr + f.d)),
             (.setindsRelRel f, free (c.inda.ptr + f.s), free (c.indb.ptr + f.d))] : List (Instr × IndReg × IndReg)),
       exec g.1 s = .next (s.ends { c with inda := g.2.1, indb := g.2.2 } 0))
    ∧ (let inside (r : IndReg) (p : RegAddr) : Prop := r.bot.toNat ≤ p.toNat ∧ p.toNat ≤ r.top.toNat
       (∀ (r : IndReg) (m : BitVec 2), inside r r.ptr →
           inside r (r.step m).ptr ∧ inside r (r.addr m) ∧ (r.step m).bot = r.bot ∧ (r.step m).top = r.top
             ∧ (r.ptr ≠ r.top → r.inc.toNat = r.ptr.toNat + 1) ∧ (r.ptr = r.top → r.inc = r.bot)
             ∧ (r.ptr ≠ r.bot → r.dec.toNat + 1 = r.ptr.toNat) ∧ (r.ptr = r.bot → r.dec = r.top))
         ∧ ∀ (r : IndReg) (a b : RegAddr), inside (IndReg.fix a b) (IndReg.fix a b).ptr
           ∧ inside (IndReg.setAbs a) (IndReg.setAbs a).ptr ∧ inside (r.setRel a) (r.setRel a).ptr)

/-- RDAUX, RDAUXR, POPX, POPY read and WRAUX, WRAUXR, PUSHX, PUSHY write the AUX long at the apparent address, or for
the reverse forms at its complement, and move the pointer of their expression; a register-addressed read takes two
clocks, and so does a write that an AUX read directly follows in the pipeline (R341 to R345, R350, R1009, R1020; the
complement after the index is decision D12). C is open (U34). While XFR runs in an AUX mode all are refused (R853, U20);
a pending AUGS is excluded (U31). -/
def Obligations.AuxAccessResults : Prop :=
  let loads (s t : State) (d : RegAddr) (wz wc : Bool) (i : Instr) (c1 : Cog) (a : Byte) (stall : Nat) : Prop :=
    (t.cog.xfr.usesAux = false → ∃ c, Out.delivers (exec i s) d
        (t.ends ((c1.setFlags wz wc (decide (auxRead t.cog.aux a = 0)) c).writeReg d (auxRead t.cog.aux a)) stall))
      ∧ (t.cog.xfr.usesAux = true → exec i s = .refused .auxBusy)
  let stores (s t : State) (v : Word) (i : Instr) (c1 : Cog) (a : Byte) : Prop :=
    (t.cog.xfr.usesAux = false → ∃ x, exec i s = .next (t.ends { c1 with aux := x } t.cog.pipe.auxStall)
        ∧ ∀ b, auxRead x b = if b = a then v else auxRead t.cog.aux b)
      ∧ (t.cog.xfr.usesAux = true → exec i s = .refused .auxBusy)
  (∀ (s t : State) (f : Dual) (o : Operands), s.stage4 f.cond (.reg f.d) (auxS f.i f.s) o t →
      (f.i = true → t.task.augs = none) →
      let u := t.cog.auxUse f.i o.sv
      loads s t o.d f.wz f.wc (.rdaux f) u.cog u.addr (if f.i then 0 else 1)
        ∧ loads s t o.d f.wz f.wc (.rdauxr f) u.cog (255 - u.addr) (if f.i then 0 else 1))
    ∧ (∀ (s t : State) (f : DualL) (o : Operands), s.stage4 f.cond (dl f.l f.d) (auxS f.i f.s) o t →
      (f.i = true → t.task.augs = none) →
      let u := t.cog.auxUse f.i o.sv
      stores s t o.dv (.wraux f) u.cog u.addr ∧ stores s t o.dv (.wrauxr f) u.cog (255 - u.addr))
    ∧ (∀ (s t : State) (f : SingleZC) (o : Operands), t.task.augs = none →
      (s.stage4 f.cond (.reg f.d) (.raw 0x15F) o t → o.sv = 0x15F →
        loads s t o.d f.wz f.wc (.popx f) { t.cog with ptrx := t.cog.ptrx - 1 } (t.cog.ptrx - 1) 0)
      ∧ (s.stage4 f.cond (.reg f.d) (.raw 0x1DF) o t → o.sv = 0x1DF →
        loads s t o.d f.wz f.wc (.popy f) { t.cog with ptry := t.cog.ptry - 1 } (255 - (t.cog.ptry - 1)) 0))
    ∧ ∀ (s t : State) (f : SingleL) (o : Operands), t.task.augs = none →
      (s.stage4 f.cond (dl f.l f.d) (.raw 0x161) o t → o.sv = 0x161 →
        stores s t o.dv (.pushx f) { t.cog with ptrx := t.cog.ptrx + 1 } t.cog.ptrx)
      ∧ (s.stage4 f.cond (dl f.l f.d) (.raw 0x1E1) o t → o.sv = 0x1E1 →
        stores s t o.dv (.pushy f) { t.cog with ptry := t.cog.ptry + 1 } (255 - t.cog.ptry))

/-- GETPTRX, GETPTRY and CHKPTRX, CHKPTRY, from their encodings on: the pointer zero-extended into D, whether it is zero
into Z and its top bit into C, in one clock (R360, R361, R368, R369). At D = $1F2, $1F3 the read is refused (U7, log 24).
-/
def Obligations.AuxPointerReads : Prop :=
  ∀ (f : SingleZC) (f0 : Zero0ZC),
    let word (wz wc b22 : Bool) (cond : BitVec 4) (d s : BitVec 9) : Word :=
      0b1111111#7 ++ (BitVec.ofBool wz ++ (BitVec.ofBool wc ++ (BitVec.ofBool b22 ++ (cond ++ (d ++ s)))))
    (decode (word f.wz f.wc false f.cond f.d 0b000001100) = .ok (.getptrx f)
        ∧ decode (word f.wz f.wc false f.cond f.d 0b000001101) = .ok (.getptry f)
        ∧ ∀ (x : Bool) (d : BitVec 9), decode (word f0.wz f0.wc x f0.cond d 0b100010100) = .ok (.chkptrx f0)
          ∧ decode (word f0.wz f0.wc x f0.cond d 0b100010101) = .ok (.chkptry f0))
      ∧ (∀ (s t : State) (o : Operands), s.stage4 f.cond (.reg f.d) (.raw 0) o t →
          Out.delivers (exec (.getptrx f) s) o.d
              (t.wrote o.d (t.cog.ptrx.setWidth 32) f.wz f.wc (decide (t.cog.ptrx = 0)) (t.cog.ptrx.getLsbD 7) 0)
            ∧ Out.delivers (exec (.getptry f) s) o.d
              (t.wrote o.d (t.cog.ptry.setWidth 32) f.wz f.wc (decide (t.cog.ptry = 0)) (t.cog.ptry.getLsbD 7) 0))
      ∧ ∀ (s t : State) (o : Operands), s.stage4 f0.cond (.raw 0) (.raw 0) o t →
          exec (.chkptrx f0) s
              = .next (t.ends (t.cog.setFlags f0.wz f0.wc (decide (t.cog.ptrx = 0)) (t.cog.ptrx.getLsbD 7)) 0)
            ∧ exec (.chkptry f0) s
              = .next (t.ends (t.cog.setFlags f0.wz f0.wc (decide (t.cog.ptry = 0)) (t.cog.ptry.getLsbD 7)) 0)

/-! ### Tasks, repeat blocks, CNT and waiting -/

/-- TASKID returns the task number. SETTASK writes TASK at once and its time slots take effect from the first at the
fifth instruction cycle after it, the four between keeping the old schedule (R392, R394; D22). JMPTASK sends every task
of the mask D[3:0] to S[15:0], cancels its instructions in the pipeline, the one that stage 1 fetches with them, stops
its repeater, drops its waiting delayed branch, and leaves its flags and stack; every other task goes on as it would
have, and memory, registers, AUX, the units and the other cogs stay (R395). Where a cancelled word behind stage 2 acts
there, INDA, INDB and the task's repeater are open (R1005, U59, log 12). -/
def Obligations.TaskControl : Prop :=
  ((∀ (s t : State) (f : SingleZC) (o : Operands), s.stage4 f.cond (.reg f.d) (.raw 0) o t →
       DResult.holds { i := .taskid f, r := (· = BitVec.ofNat 32 t.cog.cur.val) } s t o.d f.wz f.wc)
     ∧ (∀ (s t : State) (f : SingleL) (o : Operands), s.stage4 f.cond (dl f.l f.d) (.raw 0) o t →
       exec (.settask f) s = .next (t.ends { t.cog with sched := { t.cog.sched with task := o.dv, q5 := some o.dv } } 0))
     ∧ ∀ (q : Sched) (v : Word),
       (Sched.advance^[5] { q with q5 := some v }).slots = v ∧ (Sched.advance^[5] { q with q5 := some v }).slot = 0
         ∧ (q.q1 = none → q.q2 = none → q.q3 = none → q.q4 = none → ∀ k, k < 5 →
             (Sched.advance^[k] { q with q5 := some v }).slots = q.slots))
    ∧ (∀ (s t : State) (f : DualL) (o : Operands), s.stage4 f.cond (dl f.l f.d) (si f.i f.s) o t →
         let q := t.cog.pipe.queue
         ∃ u, exec (.jmptask f) s = .next u
           ∧ (u.hub = s.hub ∧ (∀ a, u.cog.stored a = s.cog.stored a) ∧ u.cog.aux = s.cog.aux
             ∧ t.cog.sameUnits u.cog ∧ u.cog.wide.regs = t.cog.wide.regs ∧ u.cog.lastD = t.cog.lastD
             ∧ ∀ k, k ≠ s.cur → u.cogs.get k = s.cogs.get k)
           ∧ ((∀ e ∈ q.take 2, o.dv.getLsbD e.task.val = true → e.cancelled = true ∨ wordActsEarly e.word = false) →
               u.cog.inda = t.cog.inda ∧ u.cog.indb = t.cog.indb)
           ∧ (∀ e ∈ q, o.dv.getLsbD e.task.val = false → e ∈ u.cog.pipe.queue)
           ∧ ∀ k : Fin 4,
           let old := t.cog.tasks.get k
           let new := u.cog.tasks.get k
           (o.dv.getLsbD k.val = true → new.pc = bits o.sv 0 16 ∧ new.dlyCount = 0 ∧ new.z = old.z ∧ new.c = old.c
               ∧ new.stack = old.stack ∧ new.augs = old.augs ∧ new.augd = old.augd
               ∧ ((∀ e ∈ q.take 2, e.task = k → e.cancelled = true ∨ wordActsEarly e.word = false) → new.rep.active = false)
               ∧ (∀ e ∈ u.cog.pipe.queue, e.task = k → e.cancelled = true)
               ∧ (q.length = 2 → t.cog.taskLater 3 = k →
                   ∃ q1 e, u.cog.pipe.queue = q1 ++ [e] ∧ q1.length = 2 ∧ e.task = k ∧ e.cancelled = true))
             ∧ (o.dv.getLsbD k.val = false → new = if k = t.cog.cur then old.advance else old))

/-- REPS and REPD load the task's repeater: the block starts two or four instructions on, has i + 1 instructions, and n or
D further passes, or no end. A count above $FFFF is refused (U40), and so is a REPx behind a delayed branch that still
waits (U43); a pending AUGS is excluded for REPS (U31) (R401 to R403; the passes D + 1 of the register form are conflict
C5; that the distances hold in every task mode is decision D7, log 57; that a running repeater is loaded anew is U41, log
25). -/
def Obligations.RepeatInstructionsLoadTheRepeater : Prop :=
  let block (k : Task) (spacers : Addr) (i : BitVec 6) (left : Passes) : Task :=
    { k with rep := ⟨true, k.pc + spacers + 1, k.pc + spacers + 1 + i.setWidth 16, left⟩ }
  let loads (s t : State) (i : Instr) (k : Task) : Prop :=
    (t.task.dlyCount = 0 → exec i s = .next (t.ends (t.cog.setTask k) 0))
      ∧ (t.task.dlyCount ≠ 0 → exec i s = .refused .delaySlot)
  (∀ (s : State) (n : BitVec 16) (i : BitVec 6), s.task.augs = none →
      loads s s (.reps n i) (block s.task 1 i (.count n.toNat)))
    ∧ (∀ (s t : State) (i : BitVec 6) (f : SingleL) (o : Operands), s.stage4 f.cond (dl f.l f.d) (.raw 0) o t →
      (o.dv.toNat ≤ 0xFFFF → loads s t (.repd i f) (block t.task 3 i (.count o.dv.toNat)))
        ∧ (0xFFFF < o.dv.toNat → exec (.repd i f) s = .refused .repeatCount))
    ∧ ∀ (s t : State) (i : BitVec 6) (f : Zero0) (o : Operands), s.stage4 f.cond (.raw 0) (.raw 0) o t →
      loads s t (.repdInf i f) (block t.task 3 i .infinite)

/-- A task at the start of an active block of `len` instructions with n further passes steps through the block n + 1 times
in order and then goes on behind it with its repeater off; an infinite block is stepped through for ever (R404). -/
def Obligations.RepeatBlockRunsItsPasses : Prop :=
  ∀ (k : Task), k.rep.active = true → k.pc = k.rep.first → k.dlyCount = 0 →
    k.rep.first.toNat ≤ k.rep.last.toNat → k.rep.last.toNat + 1 < 2 ^ 16 →
    let len := k.rep.last.toNat - k.rep.first.toNat + 1
    (∀ n, k.rep.left = .count n →
        (∀ j, j < len * (n + 1) → (Task.advance^[j] k).pc.toNat = k.rep.first.toNat + j % len)
          ∧ (Task.advance^[len * (n + 1)] k).pc.toNat = k.rep.last.toNat + 1
          ∧ (Task.advance^[len * (n + 1)] k).rep.active = false)
      ∧ (k.rep.left = .infinite → ∀ j, (Task.advance^[j] k).pc.toNat = k.rep.first.toNat + j % len
          ∧ (Task.advance^[j] k).rep = k.rep)

/-- After a taken normal branch the task's PC is the target, its instructions in the pipeline are cancelled, the one
that stage 1 is fetching with them, its repeater is off, INDA and INDB stay, and no delayed branch waits; the other tasks
and their instructions stay (R391, R405, R450; where a cancelled word behind stage 2 acts there, the repeater, INDA and INDB
are open: R1005, U59, log 12). After
a taken delayed branch three more instructions of the task stand at the addresses behind it, and then its PC is the
target; nothing is cancelled (R451). -/
def Obligations.BranchesRedirectTheTask : Prop :=
  (∀ (s : State) (c : Cog) (a : Addr) (stall : Nat),
     let u := (s.jumped c a false stall).cog
     let q := c.pipe.queue
     (u.tasks.get c.cur).pc = a ∧ (u.tasks.get c.cur).dlyCount = 0 ∧ (u.tasks.get c.cur).stack = c.task.stack
       ∧ (u.tasks.get c.cur).z = c.task.z ∧ (u.tasks.get c.cur).c = c.task.c
       ∧ ((∀ e ∈ q.take 2, e.task = c.cur → e.cancelled = true ∨ wordActsEarly e.word = false) →
           (u.tasks.get c.cur).rep.active = false ∧ u.inda = c.inda ∧ u.indb = c.indb)
       ∧ (∀ e ∈ u.pipe.queue, e.task = c.cur → e.cancelled = true)
       ∧ (q.length = 2 → c.taskLater 3 = c.cur →
           ∃ q1 e, u.pipe.queue = q1 ++ [e] ∧ q1.length = 2 ∧ e.task = c.cur ∧ e.cancelled = true)
       ∧ (∀ e ∈ q, e.task ≠ c.cur → e ∈ u.pipe.queue) ∧ ∀ k, k ≠ c.cur → u.tasks.get k = c.tasks.get k)
    ∧ (∀ (s : State) (c : Cog) (a : Addr) (stall : Nat),
         let k := (s.jumped c a true stall).cog.tasks.get c.cur
         k.pc = c.task.pc + 1 ∧ k.advance.pc = c.task.pc + 2 ∧ k.advance.advance.pc = c.task.pc + 3
           ∧ k.advance.advance.advance.pc = a ∧ k.advance.advance.advance.dlyCount = 0
           ∧ k.rep.active = false ∧ (s.jumped c a true stall).cog.pipe.queue = c.pipe.queue)

/-- GETCNT reads the low long of CNT and GETCNTX the high long of the clock before, C = MSB; SUBCNT and CMPCNT form the
difference to CNT, or, one clock after one of them by the same task, the high half of a 64-bit difference with its borrow;
C is NOT MSB, CMPCNT writes no D (R411 to R415). -/
def Obligations.CounterReads : Prop :=
  let low (t : State) : Word := bits t.hub.cnt 0 32
  let high (t : State) : Word := bits t.hub.cntPrev 32 32
  let armed (t : State) : Bool := decide (t.cog.chain.left = 1 ∧ t.cog.chain.task = t.cog.cur)
  let diff (t : State) (v : Word) : Word :=
    if armed t then high t - v - (if t.cog.chain.borrow then 1 else 0) else low t - v
  let after (t : State) (v : Word) : Cog :=
    { t.cog with chain := if armed t then { t.cog.chain with left := 0 }
                          else ⟨2, t.cog.cur, decide ((low t).toNat < v.toNat)⟩ }
  (∀ (s t : State) (f : SingleZC) (o : Operands), s.stage4 f.cond (.reg f.d) (.raw 0) o t →
      (∀ g ∈ ([{ i := .getcnt f, r := (· = low t), c := (· = (low t).getLsbD 31) },
               { i := .getcntx f, r := (· = high t), c := (· = (high t).getLsbD 31) }] : List DResult),
          g.holds s t o.d f.wz f.wc)
        ∧ Out.delivers (exec (.subcnt f) s) o.d (t.ends (((after t o.dv).setFlags f.wz f.wc (decide (diff t o.dv = 0))
            (!(diff t o.dv).getLsbD 31)).writeReg o.d (diff t o.dv)) 0))
    ∧ ∀ (s t : State) (f : SingleCL) (o : Operands), s.stage4 f.cond (dl f.l f.d) (.raw 0) o t →
      exec (.cmpcnt f) s
        = .next (t.ends ((after t o.dv).setFlags false f.wc false (!(diff t o.dv).getLsbD 31)) 0)

/-- PASSCNT jumps to itself while the MSB of CNT - D is set and else goes on; WAIT holds stage 4 for D clocks, at least
one; WAITCNT waits for CNT[31:0] = D, with WC for CNT[63:0] = {last-written D, D}, and then adds S to D, with WC the
carry into C (R416 to R419; that all bits of the WAIT operand count is the model's choice, log 52). WAITPEQ, WAITPNE
wait for the masked port to equal or differ from D, WAITPX, WAITPR, WAITPF for an edge of a pin, which D[6:0] names by
decision D23 (log 52); with WC the wait also ends when CNT[31:0] is the last-written D, and C tells that; both at once
leave C open (U42) (R420 to R424). The level before the first look at an edge is open (log 52). That a PASSCNT which falls
through inside an active repeat block goes on, with the repeating open, is the model's choice: R405 and U41 refuse it (log
25). -/
def Obligations.WaitInstructions : Prop :=
  (let low (t : State) : Word := bits t.hub.cnt 0 32
   (∀ (s t : State) (f : SingleL) (o : Operands), s.stage4 f.cond (dl f.l f.d) (.raw 0) o t →
       ((low t - o.dv).getLsbD 31 = true → Out.branches (exec (.passcnt f) s) t t.cog t.task.pc false)
         ∧ ((low t - o.dv).getLsbD 31 = false → Out.fallsThrough (exec (.passcnt f) s) t t.cog)
         ∧ exec (.wait f) s = .next (t.ends t.cog (max o.dv.toNat 1 - 1)))
     ∧ ∀ (s t : State) (f : DualP) (o : Operands), s.stage4 f.cond (.reg f.d) (si f.i f.s) o t →
       (low t = o.dv → Out.delivers (exec (.waitcnt f) s) o.d (t.ends (t.cog.writeReg o.d (o.dv + o.sv)) 0))
         ∧ (low t ≠ o.dv → exec (.waitcnt f) s = .next (t.waits o false))
         ∧ (t.hub.cnt = t.cog.lastD ++ o.dv → Out.delivers (exec (.waitcntWc f) s) o.d
             (t.wrote o.d (o.dv + o.sv) false true false (decide (2 ^ 32 ≤ o.dv.toNat + o.sv.toNat)) 0))
         ∧ (t.hub.cnt ≠ t.cog.lastD ++ o.dv → exec (.waitcntWc f) s = .next (t.waits o false)))
    ∧ (let ends (s t : State) (o : Operands) (i : Instr) (wc met pin : Bool) : Prop :=
         let timeout := wc && decide (bits t.hub.cnt 0 32 = t.cog.lastD)
         (met = true → timeout = false → exec i s = .next (t.ends (t.cog.setFlags false wc false false) 0))
           ∧ (met = false → timeout = true → exec i s = .next (t.ends (t.cog.setFlags false wc false true) 0))
           ∧ (met = true → timeout = true → ∃ c, exec i s = .next (t.ends (t.cog.setFlags false wc false c) 0))
           ∧ (met = false → timeout = false → exec i s = .next (t.waits o pin))
       (∀ (s t : State) (n : BitVec 2) (f : DualC) (o : Operands), s.stage4 f.cond (.reg f.d) (si f.i f.s) o t →
           let p := t.pinLong t.cog n.toFin &&& o.sv
           ends s t o (.waitpeq n f) f.wc (decide (p = o.dv)) false ∧ ends s t o (.waitpne n f) f.wc (decide (p ≠ o.dv)) false)
         ∧ ∀ (s t : State) (f : SingleCL) (o : Operands), s.stage4 f.cond (dl f.l f.d) (.raw 0) o t →
           ∃ before : Bool, (∀ w, s.cog.pipe.waiting = some w → before = w.pin) ∧
             let now := t.pinIn t.cog (bits o.dv 0 7)
             ends s t o (.waitpx f) f.wc (before != now) now ∧ ends s t o (.waitpr f) f.wc (!before && now) now
               ∧ ends s t o (.waitpf f) f.wc (before && !now) now)

/-! ### Branches -/

/-- JMP and JMPD go to a 16-bit absolute address, to one relative to the jump, or to D[15:0], the last with D[31:30]
into Z and C where asked; JMPLIST goes to D plus S (R453, R454, R460, R461, R501; the base of a relative address is
decision D5). A pending AUGS is excluded from the 16-bit forms (U31). IJZ, IJNZ, DJZ, DJNZ count D up or down by one and
jump by whether the result is zero; JZ, JNZ jump by D, JP and JNP by the level of pin D[6:0]; each also delayed. None
writes a flag; not taken, they go on (R455, R485 to R500). That they do so inside an active repeat block too, with the
repeating open, is the model's choice: R405 and U41 refuse it (log 25). At D = $1F2, $1F3 the counting jumps are refused
(U7). -/
def Obligations.JumpResults : Prop :=
  ((∀ (s t : State) (f : Big) (o : Operands), s.stage4 f.cond (.raw 0) (.raw 0) o t → t.task.augs = none →
       ∀ g ∈ ([(.jmpAbs f, f.n, false), (.jmpRel f, t.task.pc + f.n, false), (.jmpdAbs f, f.n, true),
               (.jmpdRel f, t.task.pc + f.n, true)] : List (Instr × Addr × Bool)),
         Out.branches (exec g.1 s) t t.cog g.2.1 g.2.2)
     ∧ (∀ (s t : State) (f : SingleZC) (o : Operands), s.stage4 f.cond (.reg f.d) (.raw 0) o t →
       ∀ g ∈ ([(.jmpReg f, false), (.jmpdReg f, true)] : List (Instr × Bool)),
         Out.branches (exec g.1 s) t (t.cog.setFlags f.wz f.wc (o.dv.getLsbD 31) (o.dv.getLsbD 30)) (bits o.dv 0 16) g.2)
     ∧ ∀ (s t : State) (f : DualP) (o : Operands), s.stage4 f.cond (.reg f.d) (sr f.i f.s) o t →
       Out.branches (exec (.jmplist f) s) t t.cog (bits (o.dv + o.sv) 0 16) false)
    ∧ (let jumps (s t : State) (i : Instr) (taken : Prop) (c1 : Cog) (a : Addr) (delayed : Bool) : Prop :=
         (taken → Out.branches (exec i s) t c1 a delayed) ∧ (¬taken → Out.fallsThrough (exec i s) t c1)
       (∀ (s t : State) (f : DualP) (o : Operands), s.stage4 f.cond (.reg f.d) (sr f.i f.s) o t →
           let a := bits o.sv 0 16
           let up := o.dv + 1
           let down := o.dv - 1
           (∀ g ∈ ([(.ijz f, up, true, false), (.ijzd f, up, true, true), (.ijnz f, up, false, false), (.ijnzd f, up,
               false, true),
                   (.djz f, down, true, false), (.djzd f, down, true, true), (.djnz f, down, false, false),
                   (.djnzd f, down, false, true)] : List (Instr × Word × Bool × Bool)),
               (isWindow o.d = false → jumps s t g.1 ((g.2.1 = 0) ↔ g.2.2.1 = true) (t.cog.writeReg o.d g.2.1) a g.2.2.2)
                 ∧ (isWindow o.d = true → exec g.1 s = .refused .indirectWindow))
             ∧ jumps s t (.jz f) (o.dv = 0) t.cog a false ∧ jumps s t (.jzd f) (o.dv = 0) t.cog a true
             ∧ jumps s t (.jnz f) (o.dv ≠ 0) t.cog a false ∧ jumps s t (.jnzd f) (o.dv ≠ 0) t.cog a true)
         ∧ ∀ (s t : State) (f : DualL) (o : Operands), s.stage4 f.cond (dl f.l f.d) (sr f.i f.s) o t →
           let a := bits o.sv 0 16
           let high := t.pinIn t.cog (bits o.dv 0 7) = true
           jumps s t (.jp f) high t.cog a false ∧ jumps s t (.jpd f) high t.cog a true
             ∧ jumps s t (.jnp f) (¬high) t.cog a false ∧ jumps s t (.jnpd f) (¬high) t.cog a true)

/-- Every call saves Z, C and the return address, three instructions further on for a delayed call, on the stack it
names: the task's own, hub memory at PTRA or PTRB (in the hub cycle), AUX at PTRX or at the complement of PTRY, moves
the pointer, loads Z and C from D[31:30] in the register forms where asked, and branches; a fifth long on the task stack
faults (U12), AUX under an XFR AUX mode is refused (U20) (R452 to R454, R462 to R471, R510; the base of a relative call
is decision D5, log 43; that a push onto the ROM changes nothing is decision D17, log 4). A pending AUGS is excluded
from the 16-bit forms (U31). -/
def Obligations.CallResults : Prop :=
  let calls (s t : State) (o : Operands) (k : CallStack) (i : Instr) (flags : Cog → Cog) (a : Addr) (delayed : Bool) :=
    let r : Addr := t.task.pc + (if delayed then 4 else 1)
    let v : Word := (if t.task.z then 0x20000 else 0) + (if t.task.c then 0x10000 else 0) + r.setWidth 32
    let out := exec i s
    let inHub (p : HubAddr) (c1 : Cog) : Prop := Out.inHubCycle out t o (∃ h,
      Out.branches out { t with hub := h } (flags c1) a delayed
        ∧ (0x00E00 ≤ p.toNat → h.mem.long (p.toNat / 4 * 4) = v)
        ∧ ∀ b, (b < p.toNat / 4 * 4 ∨ p.toNat / 4 * 4 + 4 ≤ b ∨ p.toNat < 0x00E00) → h.mem.byte b = t.hub.mem.byte b)
    let inAux (p : Byte) (c1 : Cog) : Prop :=
      (t.cog.xfr.usesAux = false → ∃ x, Out.branches out t (flags { c1 with aux := x }) a delayed
          ∧ ∀ b, auxRead x b = if b = p then v else auxRead t.cog.aux b)
        ∧ (t.cog.xfr.usesAux = true → out = .refused .auxBusy)
    match k with
    | .task =>
      (t.task.stack.length < 4 →
          Out.branches out t (flags (t.cog.setTask { t.task with stack := v :: t.task.stack })) a delayed)
        ∧ (4 ≤ t.task.stack.length → out = .fault .stackOverflow)
    | .hubA => inHub t.cog.ptra { t.cog with ptra := t.cog.ptra + 4 }
    | .hubB => inHub t.cog.ptrb { t.cog with ptrb := t.cog.ptrb + 4 }
    | .auxX => inAux t.cog.ptrx { t.cog with ptrx := t.cog.ptrx + 1 }
    | .auxY => inAux (255 - t.cog.ptry) { t.cog with ptry := t.cog.ptry + 1 }
  (∀ (s t : State) (f : Big) (o : Operands), s.stage4 f.cond (.raw 0) (.raw 0) o t → t.task.augs = none →
      ∀ g ∈ ([(.task, .callAbs f, .callRel f, .calldAbs f, .calldRel f),
              (.hubA, .callaAbs f, .callaRel f, .calladAbs f, .calladRel f),
              (.hubB, .callbAbs f, .callbRel f, .callbdAbs f, .callbdRel f),
              (.auxX, .callxAbs f, .callxRel f, .callxdAbs f, .callxdRel f),
              (.auxY, .callyAbs f, .callyRel f, .callydAbs f, .callydRel f)] :
              List (CallStack × Instr × Instr × Instr × Instr)),
        calls s t o g.1 g.2.1 id f.n false ∧ calls s t o g.1 g.2.2.1 id (t.task.pc + f.n) false
          ∧ calls s t o g.1 g.2.2.2.1 id f.n true ∧ calls s t o g.1 g.2.2.2.2 id (t.task.pc + f.n) true)
    ∧ ∀ (s t : State) (f : SingleZC) (o : Operands), s.stage4 f.cond (.reg f.d) (.raw 0) o t →
      let flags (c : Cog) : Cog := c.setFlags f.wz f.wc (o.dv.getLsbD 31) (o.dv.getLsbD 30)
      ∀ g ∈ ([(.task, .callReg f, .calldReg f), (.hubA, .callaReg f, .calladReg f), (.hubB, .callbReg f, .callbdReg f),
              (.auxX, .callxReg f, .callxdReg f), (.auxY, .callyReg f, .callydReg f)] : List (CallStack × Instr × Instr)),
        calls s t o g.1 g.2.1 flags (bits o.dv 0 16) false ∧ calls s t o g.1 g.2.2 flags (bits o.dv 0 16) true

/-- Every return takes the saved long from the stack it names, moves the pointer back, loads Z from bit 17 and C from bit
16 where asked, and branches to bits 15:0; the empty task stack faults (U12), AUX under an XFR AUX mode is refused (U20),
and a hub return holds stage 4 two clocks more (R139, R472 to R481, R510). -/
def Obligations.ReturnResults : Prop :=
  ∀ (s t : State) (f : Zero0ZC) (o : Operands), s.stage4 f.cond (.raw 0) (.raw 0) o t →
    let goes (i : Instr) (c1 : Cog) (v : Word) (delayed : Bool) (stall : Nat) : Prop :=
      Out.branches (exec i s) t (c1.setFlags f.wz f.wc (v.getLsbD 17) (v.getLsbD 16)) (bits v 0 16) delayed stall
    let inHub (i : Instr) (p : HubAddr) (c1 : Cog) (delayed : Bool) : Prop :=
      Out.inHubCycle (exec i s) t o (goes i c1 (t.hub.mem.long (p.toNat / 4 * 4)) delayed 2)
    let inAux (i : Instr) (p : Byte) (c1 : Cog) (delayed : Bool) : Prop :=
      (t.cog.xfr.usesAux = false → goes i c1 (auxRead t.cog.aux p) delayed 0)
        ∧ (t.cog.xfr.usesAux = true → exec i s = .refused .auxBusy)
    (∀ v rest, t.task.stack = v :: rest →
        goes (.ret f) (t.cog.setTask { t.task with stack := rest }) v false 0
          ∧ goes (.retd f) (t.cog.setTask { t.task with stack := rest }) v true 0)
      ∧ (t.task.stack = [] → exec (.ret f) s = .fault .stackUnderflow ∧ exec (.retd f) s = .fault .stackUnderflow)
      ∧ (let p := t.cog.ptra - 4
         inHub (.reta f) p { t.cog with ptra := p } false ∧ inHub (.retad f) p { t.cog with ptra := p } true)
      ∧ (let p := t.cog.ptrb - 4
         inHub (.retb f) p { t.cog with ptrb := p } false ∧ inHub (.retbd f) p { t.cog with ptrb := p } true)
      ∧ (let p := t.cog.ptrx - 1
         inAux (.retx f) p { t.cog with ptrx := p } false ∧ inAux (.retxd f) p { t.cog with ptrx := p } true)
      ∧ (let p := t.cog.ptry - 1
         inAux (.rety f) (255 - p) { t.cog with ptry := p } false ∧ inAux (.retyd f) (255 - p) { t.cog with ptry := p } true)

/-- A call and the return of the same stack give the caller back: when a return with WZ and WC executes in a state that
has the stack the call left, it leaves the PC behind the call (a delayed return: on its way there), Z and C as they were
before it, and the stack pointer too. All five stacks, and of the calls the absolute, relative, register and delayed
forms (R452, R462 to R481; the base of a relative call is decision D5, log 43). A hub stack must lie in RAM. -/
def Obligations.ReturnUndoesCall : Prop :=
  ∀ (s t u v : State) (f : Big) (h : SingleZC) (g : Zero0ZC),
    u.executes g.cond (.raw 0) (.raw 0) → g.wz = true → g.wc = true →
    let caller := s.task
    let back := v.cog.tasks.get u.cog.cur
    let undoes (ret retd : Instr) (kept pointer : Prop) (calls : List (Instr × Bool)) : Prop :=
      ∀ c ∈ calls, exec c.1 s = .next t → kept →
        let behind : Addr := caller.pc + (if c.2 then 4 else 1)
        (exec ret u = .next v → back.pc = behind ∧ back.z = caller.z ∧ back.c = caller.c ∧ pointer)
          ∧ (exec retd u = .next v →
              back.dlyTarget = behind ∧ back.dlyCount = 3 ∧ back.z = caller.z ∧ back.c = caller.c ∧ pointer)
    let task := undoes (.ret g) (.retd g) (u.task.stack = (t.cog.tasks.get s.cog.cur).stack) (back.stack = caller.stack)
    let hubA := undoes (.reta g) (.retad g) (s.ownsHub = true ∧ u.ownsHub = true ∧ 0x00E00 ≤ s.cog.ptra.toNat
      ∧ u.hub.mem = t.hub.mem ∧ u.cog.ptra = t.cog.ptra) (v.cog.ptra = s.cog.ptra)
    let hubB := undoes (.retb g) (.retbd g) (s.ownsHub = true ∧ u.ownsHub = true ∧ 0x00E00 ≤ s.cog.ptrb.toNat
      ∧ u.hub.mem = t.hub.mem ∧ u.cog.ptrb = t.cog.ptrb) (v.cog.ptrb = s.cog.ptrb)
    let auxX := undoes (.retx g) (.retxd g) (u.cog.aux = t.cog.aux ∧ u.cog.ptrx = t.cog.ptrx) (v.cog.ptrx = s.cog.ptrx)
    let auxY := undoes (.rety g) (.retyd g) (u.cog.aux = t.cog.aux ∧ u.cog.ptry = t.cog.ptry) (v.cog.ptry = s.cog.ptry)
    (s.executes f.cond (.raw 0) (.raw 0) →
        task [(.callAbs f, false), (.callRel f, false), (.calldAbs f, true), (.calldRel f, true)]
          ∧ hubA [(.callaAbs f, false), (.callaRel f, false), (.calladAbs f, true), (.calladRel f, true)]
          ∧ hubB [(.callbAbs f, false), (.callbRel f, false), (.callbdAbs f, true), (.callbdRel f, true)]
          ∧ auxX [(.callxAbs f, false), (.callxRel f, false), (.callxdAbs f, true), (.callxdRel f, true)]
          ∧ auxY [(.callyAbs f, false), (.callyRel f, false), (.callydAbs f, true), (.callydRel f, true)])
      ∧ (s.executes h.cond (.reg h.d) (.raw 0) →
        task [(.callReg h, false), (.calldReg h, true)] ∧ hubA [(.callaReg h, false), (.calladReg h, true)]
          ∧ hubB [(.callbReg h, false), (.callbdReg h, true)] ∧ auxX [(.callxReg h, false), (.callxdReg h, true)]
          ∧ auxY [(.callyReg h, false), (.callydReg h, true)])

/-- JMPSW and JMPSWD store Z, C and the return address in D, load Z and C from S[17:16] where asked, and branch to
S[15:0]; SWITCH and SWITCHD are JMPSW and JMPSWD INDB,++INDB WZ,WC (R452, R482 to R484; that an immediate S gives Z and
C from the bits 17:16 of its constant is the model's choice, U44, log 51). At D = $1F2, $1F3 they are refused (U7). -/
def Obligations.ThreadSwitchResults : Prop :=
  let switches (s t : State) (o : Operands) (i : Instr) (wz wc delayed : Bool) : Prop :=
    let r : Addr := t.task.pc + (if delayed then 4 else 1)
    let v : Word := (if t.task.z then 0x20000 else 0) + (if t.task.c then 0x10000 else 0) + r.setWidth 32
    (isWindow o.d = false → Out.branches (exec i s) t
        ((t.cog.setFlags wz wc (o.sv.getLsbD 17) (o.sv.getLsbD 16)).writeReg o.d v) (bits o.sv 0 16) delayed)
      ∧ (isWindow o.d = true → exec i s = .refused .indirectWindow)
  (∀ (s t : State) (f : Dual) (o : Operands), s.stage4 f.cond (.reg f.d) (sr f.i f.s) o t →
      switches s t o (.jmpsw f) f.wz f.wc false ∧ switches s t o (.jmpswd f) f.wz f.wc true)
    ∧ ∀ (s t : State) (o : Operands), s.stage4 0b0011 (.reg 0x1F3) (.reg 0x1F3) o t →
      (s.enters → o.d = s.cog.indb.ptr ∧ t.cog.indb.ptr = s.cog.indb.inc)
        ∧ switches s t o .switch true true false ∧ switches s t o .switchd true true true

/-- LOCBASE turns the instruction address in S into a hub byte address; LOCBYTE, LOCWORD, LOCLONG add D scaled by one,
two, four (above 18 bits the upper part of the result is open, U45); LOCINST gives the address of an instruction
relative to itself, the base being decision D5 (log 43). No flags (R502 to R506). -/
def Obligations.AddressInstructionResults : Prop :=
  (∀ (s t : State) (f : DualP) (o : Operands), s.stage4 f.cond (.reg f.d) (sr f.i f.s) o t →
      let base : Word := (bits o.sv 0 16).setWidth 32 <<< 2
      let sum (scale : Nat) (r : Word) : Prop :=
        let x := (o.dv <<< scale) + base
        bits r 0 18 = bits x 0 18 ∧ (x.toNat < 2 ^ 18 → r = x)
      ∀ g ∈ ([{ i := .locbase f, r := (· = base) }, { i := .locbyte f, r := sum 0 }, { i := .locword f, r := sum 1 },
              { i := .loclong f, r := sum 2 }] : List DResult), g.holds s t o.d false false)
    ∧ ∀ (s t : State) (f : Loc) (o : Operands), s.stage4 f.cond (.reg f.d) (.raw 0) o t →
      DResult.holds { i := .locinst f, r := (· = (t.task.pc + f.s.signExtend 16).setWidth 32) } s t o.d false false

/-- PUSH puts D on the task's four-long stack and POP takes the newest long into D; a fifth push and a pop of the empty
stack fault (R510 to R512, U12). -/
def Obligations.TaskStackInstructions : Prop :=
  (∀ (s t : State) (f : SingleL) (o : Operands), s.stage4 f.cond (dl f.l f.d) (.raw 0) o t →
      (t.task.stack.length < 4 →
          exec (.push f) s = .next (t.ends (t.cog.setTask { t.task with stack := o.dv :: t.task.stack }) 0))
        ∧ (4 ≤ t.task.stack.length → exec (.push f) s = .fault .stackOverflow))
    ∧ ∀ (s t : State) (f : SingleZC) (o : Operands), s.stage4 f.cond (.reg f.d) (.raw 0) o t →
      (∀ v rest, t.task.stack = v :: rest → ∃ c, Out.delivers (exec (.pop f) s) o.d
          (t.ends (((t.cog.setTask { t.task with stack := rest }).setFlags f.wz f.wc (decide (v = 0)) c).writeReg o.d v) 0))
        ∧ (t.task.stack = [] → exec (.pop f) s = .fault .stackUnderflow)

/-- SETZC, from its encoding on: D[1] into Z and D[0] into C where asked, and nothing else (R513). -/
def Obligations.SetzcLoadsTheFlags : Prop :=
  ∀ f : SingleZCL,
    decode (0b1111111#7 ++ (BitVec.ofBool f.wz ++ (BitVec.ofBool f.wc ++ (BitVec.ofBool f.l ++ (f.cond ++ (f.d ++
        0b010010000#9)))))) = .ok (.setzc f)
      ∧ ∀ (s t : State) (o : Operands), s.stage4 f.cond (dl f.l f.d) (.raw 0) o t →
        exec (.setzc f) s = .next (t.ends (t.cog.setFlags f.wz f.wc (o.dv.getLsbD 1) (o.dv.getLsbD 0)) 0)

/-- AUGS and AUGD, from their encodings on, always execute and leave their 23 bits pending; the next constant S or D of
the task is extended by them and empties the latch, a register operand leaves it pending (R177, R530 to R532). So does a
relative address: its target, the low half of the S value, is PC plus the signed nine bits, or with an AUGS pending PC plus
the low 16 bits of the extended constant, and the upper half is the constant's own (R184, R482). That the latch is emptied
at decode, whatever the condition, is decision D19 (log 43); that PC is the instruction's own address is D5 (log 43). -/
def Obligations.AugLatches : Prop :=
  (∀ (s : State) (n : BitVec 23),
      decode (0b1111101#7 ++ (0b10#2 ++ n)) = .ok (.augs n) ∧ decode (0b1111101#7 ++ (0b11#2 ++ n)) = .ok (.augd n)
        ∧ exec (.augs n) s = .next (s.ends (s.cog.setTask { s.task with augs := some n }) 0)
        ∧ exec (.augd n) s = .next (s.ends (s.cog.setTask { s.task with augd := some n }) 0))
    ∧ ∀ (s : State) (cond : BitVec 4) (du : DUse) (su : SUse) (f : RegAddr),
      (s.operands cond du (.imm f)).sv = (match s.task.augs with | some a => a ++ f | none => f.setWidth 32)
        ∧ (s.operands cond (.imm f) su).dv = (match s.task.augd with | some a => a ++ f | none => f.setWidth 32)
        ∧ bits (s.operands cond du (.rel f)).sv 0 16
            = (match s.task.augs with | some a => s.task.pc + bits (a ++ f) 0 16 | none => s.task.pc + f.signExtend 16)
        ∧ bits (s.operands cond du (.rel f)).sv 16 16 = (match s.task.augs with | some a => bits (a ++ f) 16 16 | none => 0)
        ∧ (s.opened cond du (.rel f)).task.augs = none ∧ (s.opened cond du (.imm f)).task.augs = none ∧ (s.opened cond (.imm f) su).task.augd = none
        ∧ (s.opened cond du (.reg f)).task.augs = s.task.augs ∧ (s.opened cond (.reg f) su).task.augd = s.task.augd

/-- PUSHZC and POPZC, from their encodings on, stop: the spec gives them no semantics and refuses to step a task that
executes one (R514, R515, U46, log 55). -/
def Obligations.FlagStackInstructionsStop : Prop :=
  ∀ f : SingleZC,
    let word (s : BitVec 9) : Word :=
      0b1111111#7 ++ (BitVec.ofBool f.wz ++ (BitVec.ofBool f.wc ++ (0#1 ++ (f.cond ++ (f.d ++ s)))))
    decode (word 0b000100000) = .ok (.pushzc f) ∧ decode (word 0b000100001) = .ok (.popzc f)
      ∧ ∀ (s t : State) (o : Operands), s.stage4 f.cond (.reg f.d) (.raw 0) o t →
        exec (.pushzc f) s = .refused .flagStackUndescribed ∧ exec (.popzc f) s = .refused .flagStackUndescribed

/-- A pending AUGS or AUGD that meets a constant which is no plain nine-bit immediate is refused: pointer expressions, AUX
addresses, REPS, the 16-bit forms, the bare fields of the wide transfers, of SETDAC0 to SETDAC3 and of WAITVID #n (R177,
U31, log 23). -/
def Obligations.PendingAugIsRefused : Prop :=
  let refuses (s : State) (l : List Instr) : Prop := ∀ i ∈ l, exec i s = .refused .augPending
  (∀ (s t : State) (f : Dual) (o : Operands), f.i = true → t.task.augs ≠ none →
      (s.stage4 f.cond (.reg f.d) (hubS f.i f.s) o t →
          refuses s [.rdbyte f, .rdword f, .rdlong f, .rdbytec f, .rdwordc f, .rdlongc f])
        ∧ (s.stage4 f.cond (.reg f.d) (auxS f.i f.s) o t → refuses s [.rdaux f, .rdauxr f]))
    ∧ (∀ (s t : State) (f : DualL) (o : Operands), f.i = true → t.task.augs ≠ none →
      (s.stage4 f.cond (dl f.l f.d) (hubS f.i f.s) o t → refuses s [.wrbyte f, .wrword f, .wrlong f])
        ∧ (s.stage4 f.cond (dl f.l f.d) (auxS f.i f.s) o t → refuses s [.wraux f, .wrauxr f]))
    ∧ (∀ (s t : State) (f : Big) (o : Operands), t.task.augs ≠ none → s.stage4 f.cond (.raw 0) (.raw 0) o t →
      refuses s [.jmpAbs f, .jmpRel f, .jmpdAbs f, .jmpdRel f, .callAbs f, .callRel f, .calldAbs f, .calldRel f,
        .callaAbs f, .callaRel f, .calladAbs f, .calladRel f, .callbAbs f, .callbRel f, .callbdAbs f, .callbdRel f,
        .callxAbs f, .callxRel f, .callxdAbs f, .callxdRel f, .callyAbs f, .callyRel f, .callydAbs f, .callydRel f,
        .locptraAbs f, .locptraRel f, .locptrbAbs f, .locptrbRel f])
    ∧ (∀ (s : State) (n : BitVec 16) (i : BitVec 6), s.task.augs ≠ none → refuses s [.reps n i])
    ∧ (∀ (s t : State) (f : SingleL) (o : Operands), f.l = true → t.task.augd ≠ none →
      s.stage4 f.cond (.raw f.d) (.raw 0) o t →
        refuses s [.rdwide f, .rdwidec f, .wrwide f, .setdac0 f, .setdac1 f, .setdac2 f, .setdac3 f])
    ∧ ∀ (s t : State) (n : BitVec 12) (f : DualS) (o : Operands), t.task.augd ≠ none →
      s.stage4 f.cond (.raw 0) (si f.i f.s) o t → refuses s [.waitvidImm n f]

/-! ### Math engines -/

/-- What a start of the multiplier, the divider or the square rooter leaves: the product; quotient and remainder of a
division toward zero where the denominator is not zero and the quotient fits; the fraction for D below S; the root of a
square, else its floor or one more; and the count of clocks until the result can be read (R724, R725, R728 to R734, R737
to R739). What a division leaves where the spec says nothing is open (U49, U50). A start while the engine is busy is
refused (U48). -/
def Obligations.EngineStartResults : Prop :=
  let divides (N M : Int) (lo hi : Int) (q r : Word) : Prop :=
    M ≠ 0 → lo ≤ N.tdiv M → N.tdiv M < hi → q = BitVec.ofInt 32 (N.tdiv M) ∧ r = BitVec.ofInt 32 (N.tmod M)
  let roots (v : Nat) (r : Word) : Prop :=
    (r.toNat = Nat.sqrt v ∨ r.toNat = Nat.sqrt v + 1) ∧ (Nat.sqrt v * Nat.sqrt v = v → r.toNat = Nat.sqrt v)
  let starts (s t : State) (i : Instr) (left : Nat) (m : MathUnit → Prop) : Prop :=
    (left = 0 → ∃ u, m u ∧ exec i s = .next (t.ends { t.cog with math := u } 0))
      ∧ (left ≠ 0 → exec i s = .refused .engineBusy)
  (∀ (s t : State) (f : DualL) (o : Operands), s.stage4 f.cond (dl f.l f.d) (si f.i f.s) o t →
      let m := t.cog.math
      let D := o.dv
      let S := o.sv
      let divided (u : MathUnit) (q r den : Word) : Prop :=
        u = { m with divQuotient := q, divRemainder := r, divDenominator := den, divLeft := 18 }
      starts s t (.mul32 f) m.mulLeft (· = { m with mulResult := BitVec.ofInt 64 (D.toInt * S.toInt), mulLeft := 18 })
        ∧ starts s t (.mul32u f) m.mulLeft (· = { m with mulResult := BitVec.ofNat 64 (D.toNat * S.toNat), mulLeft := 18 })
        ∧ starts s t (.div32 f) m.divLeft (fun u => ∃ q r den, divided u q r den
            ∧ divides D.toInt S.toInt (-2 ^ 31) (2 ^ 31) q r)
        ∧ starts s t (.div32u f) m.divLeft (fun u => ∃ q r den, divided u q r den ∧ divides D.toNat S.toNat 0 (2 ^ 32) q r)
        ∧ starts s t (.div64 f) m.divLeft (fun u => ∃ q r, divided u q r m.divDenominator
            ∧ divides (S ++ D).toInt m.divDenominator.toInt (-2 ^ 31) (2 ^ 31) q r)
        ∧ starts s t (.div64u f) m.divLeft (fun u => ∃ q r, divided u q r m.divDenominator
            ∧ divides (S ++ D).toNat m.divDenominator.toNat 0 (2 ^ 32) q r)
        ∧ starts s t (.frac f) m.divLeft (fun u => ∃ q r den, divided u q r den
            ∧ (D.toNat < S.toNat → q = BitVec.ofNat 32 (D.toNat * 2 ^ 32 / S.toNat)))
        ∧ starts s t (.sqrt64 f) m.sqrtLeft (fun u => ∃ r, u = { m with sqrtResult := r, sqrtLeft := 33 }
            ∧ roots (S ++ D).toNat r))
    ∧ ∀ (s t : State) (f : SingleL) (o : Operands), s.stage4 f.cond (dl f.l f.d) (.raw 0) o t →
      let m := t.cog.math
      starts s t (.div64d f) m.divLeft (· = { m with divDenominator := o.dv })
        ∧ starts s t (.sqrt32 f) m.sqrtLeft (fun u => ∃ r, u = { m with sqrtResult := r, sqrtLeft := 17 }
            ∧ roots o.dv.toNat r)

/-- What a start of the CORDIC engine leaves: some results in QX, QY and QZ, the SETQZ value used up, and the time of
R749 until they can be read; for QLOG and QEXP under QI = 0 functions that give the table of R746, of which QEXP undoes
QLOG below $07ADCBD8; for QSINCOS in trigonometric mode with the immediates #$09 and #$29 results within $100 and $FF.
SETQI takes six bits of D, SETQZ all of D (R742 to R749; that the highest 1 of 0 counts as 0, and that X and Y are
signed in their 32 bits, is the model's choice, log 40). A start or a setup while the engine is busy is refused (U48).
The other result bits are open (U52). -/
def Obligations.CordicStartResults : Prop :=
  let starts (s t : State) (i : Instr) (m : MathUnit → Prop) : Prop :=
    (t.cog.math.qLeft = 0 → ∃ u, m u ∧ exec i s = .next (t.ends { t.cog with math := u } 0))
      ∧ (t.cog.math.qLeft ≠ 0 → exec i s = .refused .engineBusy)
  let step (i : Nat) : Nat := if i ≤ 3 then 0 else if i ≤ 12 then 1 else 2
  let done (m u : MathUnit) (x y z : Word) (clocks : Nat) : Prop :=
    u = { m with qx := x, qy := y, qz := z, qzPreset := false, qLeft := clocks + 1 }
  let table : List (Word × Word × Word) :=
    [(0, 0, 1), (1, 0, 1), (2, 0x08000000, 2), (3, 0x0CAE00D2, 3), (4, 0x10000000, 4), (5, 0x12934F09, 5),
     (0x07ADCBD8, 0xD786F595, 0x07ADCBD9), (0x20000000, 0xE8000000, 0x20000000), (0x40000000, 0xF0000000, 0x40000000),
     (0x80000000, 0xF8000000, 0x80000000), (0xFFFFFFFF, 0xFFFFFFFF, 0xFFFFFFE9)]
  (∃ log exp : Word → Word, (∀ e ∈ table, log e.1 = e.2.1 ∧ exp e.2.1 = e.2.2)
      ∧ (∀ v : Word, v ≠ 0 → v.toNat < 0x07ADCBD8 → exp (log v) = v)
      ∧ ∀ (s t : State) (f : SingleL) (o : Operands), s.stage4 f.cond (dl f.l f.d) (.raw 0) o t →
      let m := t.cog.math
      let n := (bits m.qi 0 5).toNat
      let clocks := if n = 0 then 35 else 2 + n + step n
      starts s t (.setqi f) (· = { m with qi := bits o.dv 0 6 })
        ∧ starts s t (.setqz f) (· = { m with qz := o.dv, qzPreset := true })
        ∧ starts s t (.qlog f) (fun u => ∃ x y z, done m u x y z clocks
            ∧ (m.qi = 0 → z = log o.dv))
        ∧ starts s t (.qexp f) (fun u => ∃ x y z, done m u x y z clocks
            ∧ (m.qi = 0 → z = exp o.dv)))
    ∧ ∀ (s t : State) (f : DualL) (o : Operands), s.stage4 f.cond (dl f.l f.d) (si f.i f.s) o t →
      let m := t.cog.math
      let n := (bits m.qi 0 5).toNat
      let hyperbolic := m.qi.getLsbD 5
      let mag := Nat.log2 ((bits o.dv 0 30).toInt.natAbs ||| (bits o.sv 0 30).toInt.natAbs)
      let k := if mag ≤ 1 then 0 else if mag ≤ 10 then 1 else 2
      let clocks := if hyperbolic then (if n = 0 then 4 + mag + k else 2 + n + step n) else if n = 0 then 5 + mag else 3 + n
      let amp := o.sv.toNat
      starts s t (.qarctan f) (fun u => ∃ x y z, done m u x y z clocks)
        ∧ starts s t (.qrotate f) (fun u => ∃ x y z, done m u x y z clocks)
        ∧ starts s t (.qsincos f) (fun u => ∃ x y z wait, done m u x y z wait
            ∧ (f.i = false → wait = clocks)
            ∧ (f.i = true → hyperbolic = false → wait = if n = 0 then 2 + amp else 2 + n)
            ∧ (f.i = true → hyperbolic = true → n ≠ 0 → wait = 1 + n + step n)
            ∧ (f.i = true → s.task.augs = none → hyperbolic = false → amp = 0x09 →
                x.toInt.natAbs ≤ 0x100 ∧ y.toInt.natAbs ≤ 0x100)
            ∧ (f.i = true → s.task.augs = none → hyperbolic = false → amp = 0x29 →
                x.toInt.natAbs ≤ 0xFF ∧ y.toInt.natAbs ≤ 0xFF)
            ∧ (f.i = true → hyperbolic = true → n = 0 → 1 ≤ amp → amp ≤ 31 → wait = 1 + amp + step amp))

/-- GETMULL, GETMULH, GETDIVQ, GETDIVR, GETSQRT, GETQX, GETQY, GETQZ read their result when it is ready, and wait until
then by stalling or, in multi-task mode, by looping; Z by the default rule, C open (R398, R723, R726, R727, R735, R736,
R740, R750 to R752). -/
def Obligations.EngineResultReads : Prop :=
  ∀ (s t : State) (f : SingleZC) (o : Operands), s.stage4 f.cond (.reg f.d) (.raw 0) o t →
    let m := t.cog.math
    ∀ g ∈ ([(.getmull f, m.mulLeft, bits m.mulResult 0 32), (.getmulh f, m.mulLeft, bits m.mulResult 32 32),
            (.getdivq f, m.divLeft, m.divQuotient), (.getdivr f, m.divLeft, m.divRemainder),
            (.getsqrt f, m.sqrtLeft, m.sqrtResult), (.getqx f, m.qLeft, m.qx), (.getqy f, m.qLeft, m.qy),
            (.getqz f, m.qLeft, m.qz)] : List (Instr × Nat × Word)),
      Out.whenReady (exec g.1 s) t o (g.2.1 == 0)
        (∃ c, Out.delivers (exec g.1 s) o.d (t.wrote o.d g.2.2 f.wz f.wc (decide (g.2.2 = 0)) c 0))

/-- MACA and MACB add the signed product of the low 20 bits of D and S; SETACCx loads {S, D}, CLRACCx clears, SARACCx
shifts right by D[5:0], copying the sign; GETACxx read a half. The last two kinds stall behind a MACA or MACB, in either
mode (R761 to R770). -/
def Obligations.AccumulatorInstructions : Prop :=
  (∀ (s t : State) (f : DualL) (o : Operands), s.stage4 f.cond (dl f.l f.d) (si f.i f.s) o t →
      let m := t.cog.math
      let p : BitVec 64 := BitVec.ofInt 64 ((bits o.dv 0 20).toInt * (bits o.sv 0 20).toInt)
      ∀ g ∈ ([(.maca f, { m with acca := m.acca + p, macLeft := 3 }), (.macb f, { m with accb := m.accb + p, macLeft := 3 }),
              (.setacca f, { m with acca := o.sv ++ o.dv }), (.setaccb f, { m with accb := o.sv ++ o.dv })] :
              List (Instr × MathUnit)), exec g.1 s = .next (t.ends { t.cog with math := g.2 } 0))
    ∧ (∀ (s t : State) (f : Zero0) (o : Operands), s.stage4 f.cond (.raw 0) (.raw 0) o t →
      let m := t.cog.math
      ∀ g ∈ ([(.clracca f, { m with acca := 0 }), (.clraccb f, { m with accb := 0 }),
              (.clraccs f, { m with acca := 0, accb := 0 })] : List (Instr × MathUnit)),
        exec g.1 s = .next (t.ends { t.cog with math := g.2 } 0))
    ∧ (∀ (s t : State) (f : SingleL) (o : Operands), s.stage4 f.cond (dl f.l f.d) (.raw 0) o t →
      let m := t.cog.math
      let n := (bits o.dv 0 6).toNat
      let shifted (a b : BitVec 64) : Prop := ∀ k < 64, b.getLsbD k = a.getLsbD (min (k + n) 63)
      ∀ i ∈ [.saracca f, .saraccb f, .saraccs f],
        (m.macLeft = 0 → ∃ a b, (if i = .saraccb f then a = m.acca else shifted m.acca a)
            ∧ (if i = .saracca f then b = m.accb else shifted m.accb b)
            ∧ exec i s = .next (t.ends { t.cog with math := { m with acca := a, accb := b } } 0))
          ∧ (m.macLeft ≠ 0 → exec i s = .next (t.waits o false)))
    ∧ ∀ (s t : State) (f : SingleZC) (o : Operands), s.stage4 f.cond (.reg f.d) (.raw 0) o t →
      let m := t.cog.math
      ∀ g ∈ ([(.getacal f, bits m.acca 0 32), (.getacah f, bits m.acca 32 32), (.getacbl f, bits m.accb 0 32),
              (.getacbh f, bits m.accb 32 32)] : List (Instr × Word)),
        (m.macLeft = 0 → ∃ c, Out.delivers (exec g.1 s) o.d (t.wrote o.d g.2 f.wz f.wc (decide (g.2 = 0)) c 0))
          ∧ (m.macLeft ≠ 0 → exec g.1 s = .next (t.waits o false))

/-! ### Pins, counters, DACs, transfer, serial -/

/-- OFFP makes pin D[6:0] an input and leaves its OUT bit; NOTP, CLRP, SETP, SETPC, SETPNC, SETPZ, SETPNZ make it an
output with the OUT bit inverted, 0, 1, C, NOT C, Z, NOT Z; no other pin changes. GETP and GETNP read a pin into Z and
C. CFGPINS and SETPORx write registers that nothing else reads, CFGPINS after a stall of open length (R780 to R797; what
OFFP, SETP, SETPC, SETPNC, SETPZ, SETPNZ do is the model's presumption, U54, log 13; the opaque registers: U55, log 31).
-/
def Obligations.PinInstructions : Prop :=
  (∀ (s t : State) (f : SingleL) (o : Operands), s.stage4 f.cond (dl f.l f.d) (.raw 0) o t →
      let port : Fin 4 := (bits o.dv 5 2).toFin
      let bit := (bits o.dv 0 5).toNat
      let c := t.cog
      let was := (c.ports.out.get port).getLsbD bit
      (∀ g ∈ ([(.offp f, was, false), (.notp f, !was, true), (.clrp f, false, true), (.setp f, true, true),
              (.setpc f, t.task.c, true), (.setpnc f, !t.task.c, true), (.setpz f, t.task.z, true),
              (.setpnz f, !t.task.z, true)] : List (Instr × Bool × Bool)),
          ∃ out dir, exec g.1 s = .next (t.ends { c with ports := { c.ports with out := out, dir := dir } } 0)
            ∧ ∀ (p : Fin 4) (k : Nat), k < 32 →
              (out.get p).getLsbD k = (if p = port ∧ k = bit then g.2.1 else (c.ports.out.get p).getLsbD k)
                ∧ (dir.get p).getLsbD k = (if p = port ∧ k = bit then g.2.2 else (c.ports.dir.get p).getLsbD k))
        ∧ ∀ g ∈ ([(.setpora f, 0), (.setporb f, 1), (.setporc f, 2), (.setpord f, 3)] : List (Instr × Fin 4)),
          exec g.1 s = .next (t.ends { c with opq := { c.opq with por := c.opq.por.set g.2 o.dv } } 0))
    ∧ (∀ (s t : State) (f : SingleZCL) (o : Operands), s.stage4 f.cond (dl f.l f.d) (.raw 0) o t →
      let b := t.pinIn t.cog (bits o.dv 0 7)
      exec (.getp f) s = .next (t.ends (t.cog.setFlags f.wz f.wc (!b) b) 0)
        ∧ exec (.getnp f) s = .next (t.ends (t.cog.setFlags f.wz f.wc b (!b)) 0))
    ∧ ∀ (s t : State) (n : BitVec 2) (f : DualL) (o : Operands), s.stage4 f.cond (dl f.l f.d) (si f.i f.s) o t →
      let q := t.cog.opq
      ∃ stall, exec (.cfgpins n f) s = .next (t.ends { t.cog with opq :=
        { q with pinsD := q.pinsD.set n.toFin o.dv, pinsS := q.pinsS.set n.toFin o.sv } } stall)

/-- The instructions of CTRA and CTRB: the setting forms write CTR, WAV, FRQ, PHS or add to and subtract from PHS, in
the S forms with D for CTRB and S for CTRA; GETPHZx reads and clears PHS; CAPCTRx captures and clears the accumulators;
SYNCTRx waits for a rollover; POLCTRx reports one and clears it, which is decision D24 (log 35) (R800 to R811, R816,
R817). PHS set in a clock in which its counter adds or subtracts may stay (R804). -/
def Obligations.CounterInstructions : Prop :=
  let puts (u : Ctr) (v : Word) (w : Ctr) : Prop := w = { u with phs := v } ∨ ((u.adding || u.subbing) = true ∧ w = u)
  let capture (u : Ctr) : Ctr := { u with cos := u.cosAcc, sin := u.sinAcc, cosAcc := 0, sinAcc := 0 }
  (∀ (s t : State) (f : SingleL) (o : Operands), s.stage4 f.cond (dl f.l f.d) (.raw 0) o t →
      let a := t.cog.ctra
      let b := t.cog.ctrb
      let v := o.dv
      (∀ g ∈ ([(.setctra f, { a with cfg := v }, b), (.setctrb f, a, { b with cfg := v }),
              (.setwava f, { a with wav := v }, b), (.setwavb f, a, { b with wav := v }),
              (.setfrqa f, { a with frq := v }, b), (.setfrqb f, a, { b with frq := v }),
              (.addphsa f, { a with phs := a.phs + v }, b), (.addphsb f, a, { b with phs := b.phs + v }),
              (.subphsa f, { a with phs := a.phs - v }, b), (.subphsb f, a, { b with phs := b.phs - v })] :
              List (Instr × Ctr × Ctr)),
          exec g.1 s = .next (t.ends { t.cog with ctra := g.2.1, ctrb := g.2.2 } 0))
        ∧ (∃ w, puts a v w ∧ exec (.setphsa f) s = .next (t.ends { t.cog with ctra := w } 0))
        ∧ ∃ w, puts b v w ∧ exec (.setphsb f) s = .next (t.ends { t.cog with ctrb := w } 0))
    ∧ (∀ (s t : State) (f : DualL) (o : Operands), s.stage4 f.cond (dl f.l f.d) (si f.i f.s) o t →
      let a := t.cog.ctra
      let b := t.cog.ctrb
      let D := o.dv
      let S := o.sv
      (∀ g ∈ ([(.setctrs f, { a with cfg := S }, { b with cfg := D }), (.setwavs f, { a with wav := S }, { b with wav := D }),
              (.setfrqs f, { a with frq := S }, { b with frq := D }),
              (.addphss f, { a with phs := a.phs + S }, { b with phs := b.phs + D }),
              (.subphss f, { a with phs := a.phs - S }, { b with phs := b.phs - D })] : List (Instr × Ctr × Ctr)),
          exec g.1 s = .next (t.ends { t.cog with ctra := g.2.1, ctrb := g.2.2 } 0))
        ∧ ∃ w x, puts a S w ∧ puts b D x ∧ exec (.setphss f) s = .next (t.ends { t.cog with ctra := w, ctrb := x } 0))
    ∧ (∀ (s t : State) (f : SingleZC) (o : Operands), s.stage4 f.cond (.reg f.d) (.raw 0) o t →
      let a := t.cog.ctra
      let b := t.cog.ctrb
      ∀ g ∈ ([(.getphsa f, a.phs, a, b), (.getphsb f, b.phs, a, b), (.getphza f, a.phs, { a with phs := 0 }, b),
              (.getphzb f, b.phs, a, { b with phs := 0 }), (.getcosa f, a.cos, a, b), (.getcosb f, b.cos, a, b),
              (.getsina f, a.sin, a, b), (.getsinb f, b.sin, a, b)] : List (Instr × Word × Ctr × Ctr)),
        ∃ c, Out.delivers (exec g.1 s) o.d (t.ends ((({ t.cog with ctra := g.2.2.1, ctrb := g.2.2.2 } : Cog).setFlags f.wz
          f.wc (decide (g.2.1 = 0)) c).writeReg o.d g.2.1) 0))
    ∧ (∀ (s t : State) (f : Zero0) (o : Operands), s.stage4 f.cond (.raw 0) (.raw 0) o t →
      (∀ g ∈ ([(.capctra f, capture t.cog.ctra, t.cog.ctrb), (.capctrb f, t.cog.ctra, capture t.cog.ctrb),
              (.capctrs f, capture t.cog.ctra, capture t.cog.ctrb)] : List (Instr × Ctr × Ctr)),
          exec g.1 s = .next (t.ends { t.cog with ctra := g.2.1, ctrb := g.2.2 } 0))
        ∧ ∀ g ∈ ([(.synctra f, t.cog.ctra.rolling), (.synctrb f, t.cog.ctrb.rolling)] : List (Instr × Bool)),
          Out.whenReady (exec g.1 s) t o g.2 (exec g.1 s = .next (t.ends t.cog 0)))
    ∧ ∀ (s t : State) (f : Zero0ZC) (o : Operands), s.stage4 f.cond (.raw 0) (.raw 0) o t →
      let a := t.cog.ctra
      let b := t.cog.ctrb
      ∀ g ∈ ([(.polctra f, a.rolled, { a with rolled := false }, b), (.polctrb f, b.rolled, a, { b with rolled := false })] :
              List (Instr × Bool × Ctr × Ctr)),
        exec g.1 s = .next (t.ends (({ t.cog with ctra := g.2.2.1, ctrb := g.2.2.2 } : Cog).setFlags f.wz f.wc (!g.2.1) g.2.1) 0)

/-- CFGDACn and CFGDACS write two bits of configuration per channel; SETDACn and SETDACS write the 18-bit value, from
D[31:14], from a nine-bit constant or from a byte each, in the middle of its step, and take the channel over; SETRACE
takes four bits; SETXFR restarts the transfer pattern, from AUX to pins a clock later; SETXCH takes 32 bits (R831 to R840,
R851, R852, R870, R941). A pending AUGD is excluded from the constant SETDAC0 to SETDAC3 (U31); SETDACS uses it up. SETMAP
takes seven bits, which form addresses from the third instruction on: with BBB = 0 a direct field names its own register; a
field below 2^RRR names (selector mod 2^BBB) * 2^RRR + field, the selector being INDB's pointer or the task; any other field
stays. The D and S registers of an instruction are found so, and those of INDA and INDB by their pointers, without the
mapping (R178 to R180, R183, R931, R932). BBB + RRR above 9 is open (U32). -/
def Obligations.UnitConfiguration : Prop :=
  let mid (v : BitVec 9) : BitVec 18 := v ++ 0x100#9
  (∀ (s t : State) (f : SingleL) (o : Operands), s.stage4 f.cond (dl f.l f.d) (.raw 0) o t →
      let c := t.cog
      let u := c.dac
      let v := o.dv
      ∀ g ∈ ([(.cfgdac0 f, { c with dac := { u with cfg := { u.cfg with e0 := bits v 0 2 } } }),
              (.cfgdac1 f, { c with dac := { u with cfg := { u.cfg with e1 := bits v 0 2 } } }),
              (.cfgdac2 f, { c with dac := { u with cfg := { u.cfg with e2 := bits v 0 2 } } }),
              (.cfgdac3 f, { c with dac := { u with cfg := { u.cfg with e3 := bits v 0 2 } } }),
              (.cfgdacs f, { c with dac := { u with cfg := ⟨bits v 0 2, bits v 2 2, bits v 4 2, bits v 6 2⟩ } }),
              (.setrace f, { c with trace := bits v 0 4 }), (.setmap f, { c with remap := { c.remap with map := bits v 0 7 } }),
              (.setxch f, { c with ports := { c.ports with xch := v } })] : List (Instr × Cog)),
        exec g.1 s = .next (t.ends g.2 0))
    ∧ (∀ (s t : State) (f : SingleL) (o : Operands), s.stage4 f.cond (if f.l then .raw f.d else .reg f.d) (.raw 0) o t →
      (f.l = true → t.task.augd = none) →
      let u := t.cog.dac
      let x := if f.l then mid (bits o.dv 0 9) else bits o.dv 14 18
      ∀ g ∈ ([(.setdac0 f, { u with cfg := { u.cfg with e0 := 0 }, val := { u.val with e0 := x } }),
              (.setdac1 f, { u with cfg := { u.cfg with e1 := 0 }, val := { u.val with e1 := x } }),
              (.setdac2 f, { u with cfg := { u.cfg with e2 := 0 }, val := { u.val with e2 := x } }),
              (.setdac3 f, { u with cfg := { u.cfg with e3 := 0 }, val := { u.val with e3 := x } })] : List (Instr × Dac)),
        exec g.1 s = .next (t.ends { t.cog with dac := g.2 } 0))
    ∧ (∀ (s t : State) (f : SingleL) (o : Operands), s.stage4 f.cond (dl f.l f.d) (.raw 0) o t →
      let byte (k : Nat) : BitVec 18 := if f.l then mid (bits o.dv 0 9) else mid (bits o.dv (8 * k) 8 ++ 0#1)
      exec (.setdacs f) s = .next (t.ends { t.cog with dac :=
        { t.cog.dac with cfg := Quad.all 0, val := ⟨byte 0, byte 1, byte 2, byte 3⟩ } } 0))
    ∧ (∀ (s t : State) (f : DualL) (o : Operands), s.stage4 f.cond (dl f.l f.d) (si f.i f.s) o t →
      ∃ p, exec (.setxfr f) s = .next (t.ends { t.cog with xfr := { t.cog.xfr with
        cfg := bits o.dv 0 7, phase := 0, pins := p, delay := bits o.dv 4 3 = 0b101#3 } } 0))
    ∧ (∀ (s : State) (c : Cog) (n : Nat),
      let next (x : Cog) : Cog := x.endCycle 0
      (s.ends c n).cog.remap.eff = c.remap.m2 ∧ (next (s.ends c n).cog).remap.eff = c.remap.m1
        ∧ (next (next (s.ends c n).cog)).remap.eff = c.remap.map)
    ∧ (∀ (c : Cog) (f : RegAddr),
      let selector := if c.remap.eff.getLsbD 6 then c.cur.val else c.indb.ptr.toNat
      let bbb := (bits c.remap.eff 3 3).toNat
      let rrr := (bits c.remap.eff 0 3).toNat
      (bbb = 0 ∨ 2 ^ rrr ≤ f.toNat → c.remapField f = f)
        ∧ (bbb ≠ 0 → f.toNat < 2 ^ rrr → bbb + rrr ≤ 9 →
            (c.remapField f).toNat = selector % 2 ^ bbb * 2 ^ rrr + f.toNat))
    ∧ ∀ (s : State) (cond : BitVec 4) (du : DUse) (su : SUse) (f : RegAddr),
      let c := s.cog
      let register (m : BitVec 2) : RegAddr :=
        if f = 0x1F2 then c.inda.addr m else if f = 0x1F3 then c.indb.addr m else c.remapField f
      (s.operands cond (.reg f) su).d = register (bits cond 2 2)
        ∧ (s.operands cond (.reg f) su).dv = s.readReg c (register (bits cond 2 2))
        ∧ (s.operands cond du (.reg f)).sv = s.readReg c (register (bits cond 0 2))

/-- SETSERx loads configuration and periods, the receive period from the upper half of S or, where that is 0, from the
lower; a period of 0 on an enabled side is refused (U57). That it is accepted on a disabled side, which R860 and U57 do not
set apart, is the model's choice (log 28). SEROUTx hands D to a transmitter that is ready, SERINx takes the
received value and empties the buffer; without WC they wait, with WC they try once and tell success in C (R860 to R866).
What a disabled transmitter does and what becomes of a frame in flight are open (log 28). -/
def Obligations.SerialInstructions : Prop :=
  (∀ (s t : State) (f : DualL) (o : Operands), s.stage4 f.cond (dl f.l f.d) (si f.i f.s) o t →
      let rx := if bits o.sv 16 16 = 0 then bits o.sv 0 16 else bits o.sv 16 16
      let bad := (bits o.dv 7 2 ≠ 0 ∧ bits o.sv 0 16 = 0) ∨ (bits o.dv 16 2 ≠ 0 ∧ rx = 0)
      let set (u : Ser) : Prop := u.cfg = o.dv ∧ u.txPeriod = bits o.sv 0 16 ∧ u.rxPeriod = rx
      (¬bad → ∃ u, set u ∧ (t.cog.sera.txBusy = false → u.txBusy = false) ∧ (t.cog.sera.rxFull = false → u.rxFull = false)
          ∧ exec (.setsera f) s = .next (t.ends { t.cog with sera := u } 0))
        ∧ (¬bad → ∃ u, set u ∧ (t.cog.serb.txBusy = false → u.txBusy = false) ∧ (t.cog.serb.rxFull = false → u.rxFull = false)
          ∧ exec (.setserb f) s = .next (t.ends { t.cog with serb := u } 0))
        ∧ (bad → exec (.setsera f) s = .refused .serialPeriod ∧ exec (.setserb f) s = .refused .serialPeriod))
    ∧ (∀ (s t : State) (f : SingleCL) (o : Operands), s.stage4 f.cond (dl f.l f.d) (.raw 0) o t →
      let sends (i : Instr) (u : Ser) (put : Ser → Cog) : Prop :=
        let mode := bits u.cfg 7 2
        let frame := 2 + (if mode = 1 then 32 else 8) + (if u.cfg.getLsbD 18 then 4 else 0)
        let sent := put { u with txData := o.dv, txBusy := true, txLeft := frame * u.txPeriod.toNat }
        ∃ ready, (mode ≠ 0 → ready = !u.txBusy)
          ∧ (f.wc = true → exec i s = .next (t.ends ((if ready then sent else t.cog).setFlags false true false ready) 0))
          ∧ (f.wc = false → Out.whenReady (exec i s) t o ready (exec i s = .next (t.ends sent 0)))
      sends (.serouta f) t.cog.sera (fun u => { t.cog with sera := u })
        ∧ sends (.seroutb f) t.cog.serb (fun u => { t.cog with serb := u }))
    ∧ ∀ (s t : State) (f : SingleZC) (o : Operands), s.stage4 f.cond (.reg f.d) (.raw 0) o t →
      let receives (i : Instr) (u : Ser) (put : Ser → Cog) : Prop :=
        ∃ v, (u.rxFull = true → v = u.rxData) ∧
          let u1 := t.ends (((put { u with rxFull := false }).setFlags f.wz f.wc (decide (v = 0)) u.rxFull).writeReg o.d v) 0
          (f.wc = true → Out.delivers (exec i s) o.d u1)
            ∧ (f.wc = false → Out.whenReady (exec i s) t o u.rxFull (Out.delivers (exec i s) o.d u1))
      receives (.serina f) t.cog.sera (fun u => { t.cog with sera := u })
        ∧ receives (.serinb f) t.cog.serb (fun u => { t.cog with serb := u })

/-! ### Video, texture, mixer -/

/-- SETVID, SETVIDY, SETVIDI, SETVIDQ write the generator's registers. WAITVID hands {D, S} to a generator that has room
and waits until it has; POLVID tells whether it has. While the generator is off or has no dot clock, room is open (log
37). The form with a 12-bit constant D excludes a pending AUGD (U31) (R881 to R888). -/
def Obligations.VideoInstructions : Prop :=
  let room (t : State) (r : Bool) : Prop :=
    bits t.cog.vid.cfg 5 2 ≠ 0 → bits t.cog.ctra.cfg 3 2 = 0 → bits t.cog.ctra.cfg 0 3 ≠ 0 → r = t.cog.vid.next.isNone
  let gives (s t : State) (o : Operands) (i : Instr) (d v : Word) : Prop :=
    ∃ r, room t r ∧ Out.whenReady (exec i s) t ⟨o.d, d, v⟩ r
      (exec i s = .next (t.ends { t.cog with vid := { t.cog.vid with next := some (d, v) } } 0))
  (∀ (s t : State) (f : SingleL) (o : Operands), s.stage4 f.cond (dl f.l f.d) (.raw 0) o t →
      let u := t.cog.vid
      ∀ g ∈ ([(.setvid f, { u with cfg := bits o.dv 0 7 }), (.setvidy f, { u with y := o.dv }), (.setvidi f,
          { u with i := o.dv }),
              (.setvidq f, { u with q := o.dv })] : List (Instr × Vid)),
        exec g.1 s = .next (t.ends { t.cog with vid := g.2 } 0))
    ∧ (∀ (s t : State) (f : DualP) (o : Operands), s.stage4 f.cond (.reg f.d) (si f.i f.s) o t →
      gives s t o (.waitvid f) o.dv o.sv)
    ∧ (∀ (s t : State) (n : BitVec 12) (f : DualS) (o : Operands), s.stage4 f.cond (.raw 0) (si f.i f.s) o t →
      t.task.augd = none → gives s t o (.waitvidImm n f) (n.setWidth 32) o.sv)
    ∧ ∀ (s t : State) (f : Zero0ZC) (o : Operands), s.stage4 f.cond (.raw 0) (.raw 0) o t →
      ∃ r, room t r ∧ exec (.polvid f) s = .next (t.ends (t.cog.setFlags f.wz f.wc (!r) r) 0)

/-- SETPIX and SETPIXZ to SETPIXB write the texture mapper, value from the upper word, delta from the lower; SETPIXW
marks its setting, after which results are free (U55, log 31). GETPIX, in its preparation of R906, adds every delta to
its value, mixes some pixel into D, in word mode into its lower word with the words swapped, and takes three clocks; the
pixel is the AUX colour that the texel selects, scaled, where nothing the spec leaves out is in use (R901 to R908, R917;
mirrors, S, and whether word mode toggles the selector: U58, log 29). That register remapping does not apply to the texture
read, under any MAP, and that the read sees what the two instructions just ahead wrote, is the model's choice (R907 is
silent, log 29). Not prepared, or with a condition that can fail,
it is refused (U30, log 22), and so it is beyond register $1F1 (U58) and while XFR runs in an AUX mode (R853, U20). -/
def Obligations.TextureInstructions : Prop :=
  (∀ (s t : State) (f : SingleL) (o : Operands), s.stage4 f.cond (dl f.l f.d) (.raw 0) o t →
      let p := t.cog.pix
      let v : PixPair := ⟨bits o.dv 16 16, bits o.dv 0 16⟩
      ∀ g ∈ ([(.setpix f, { p with cfg := o.dv }), (.setpixz f, { p with z := v }), (.setpixu f, { p with u := v }),
              (.setpixv f, { p with v := v }), (.setpixa f, { p with a := v }), (.setpixr f, { p with r := v }),
              (.setpixg f, { p with g := v }), (.setpixb f, { p with b := v })] : List (Instr × Pix)),
        exec g.1 s = .next (t.ends { t.cog with pix := g.2 } 0))
    ∧ (∀ (s t : State) (f : Zero0) (o : Operands), s.stage4 f.cond (.raw 0) (.raw 0) o t →
      exec (.setpixw f) s = .next (t.ends { t.cog with opq := { t.cog.opq with pixw := true } } 0))
    ∧ ∀ (s t : State) (f : SingleZC) (o : Operands), s.stage4 f.cond (.reg f.d) (.raw 0) o t →
      let p := t.cog.pix
      let m := t.cog.mix
      let c := t.cog
      let prepared := (f.cond = 15 ∨ f.d = 0x1F2 ∨ f.d = 0x1F3) ∧ c.sched.task = 0 ∧ 3 ≤ c.pipe.took1 ∧ 3 ≤ c.pipe.took2
      let mirrored := bits p.cfg 21 2 ≠ 0
      let plain := ¬mirrored ∧ p.cfg.getLsbD 23 = false ∧ c.opq.pixw = false
      let after (q : PixPair) : PixPair := { q with value := q.value + q.delta }
      let stepped : Pix :=
        ⟨p.cfg, after p.z, after p.u, after p.v, after p.a, after p.r, after p.g, after p.b⟩
      let bpp := 2 ^ (bits p.cfg 24 2).toNat
      let divisor := 256 - (bits p.z.value 8 8).toNat
      let tx := p.u.value.toNat / divisor % 256 / 2 ^ (8 - (bits p.cfg 29 3).toNat)
      let ty := p.v.value.toNat / divisor % 256 / 2 ^ (8 - (bits p.cfg 26 3).toNat)
      let place := (ty * 2 ^ (bits p.cfg 29 3).toNat + tx) * bpp
      let reg := (bits p.cfg 0 9).toNat + place / 32
      let texel := (c.stored (BitVec.ofNat 9 reg)).toNat / 2 ^ (place % 32) % 2 ^ bpp
      let colour := auxRead c.aux (bits p.cfg 9 8 + BitVec.ofNat 8 texel)
      let scaled (k : Nat) (q : PixPair) : Byte :=
        BitVec.ofNat 8 (((bits colour (8 * k) 8).toNat * (bits q.value 8 8).toNat + 255) / 256)
      let px : Word := scaled 3 p.a ++ (scaled 2 p.r ++ (scaled 1 p.g ++ scaled 0 p.b))
      (prepared → (mirrored ∨ reg < 0x1F2) → c.xfr.usesAux = false →
          ∃ r fc sel, (m.m.getLsbD 8 = false → sel = m.sel)
            ∧ (plain → r = (if m.m.getLsbD 8 then mixWord m.terms o.dv px else mixPixels m.terms o.dv px) ∧ fc = decide (bits px 24 8 ≠ 0))
            ∧ Out.delivers (exec (.getpix f) s) o.d (t.ends ((({ c with pix := stepped, mix := { m with sel := sel } } : Cog).setFlags
                f.wz f.wc (decide (r = 0)) fc).writeReg o.d r) 2))
        ∧ (¬prepared → exec (.getpix f) s = .refused .pixUnprepared)
        ∧ (prepared → ¬mirrored → 0x1F2 ≤ reg → exec (.getpix f) s = .refused .texturePastRam)
        ∧ (prepared → (mirrored ∨ reg < 0x1F2) → c.xfr.usesAux = true → exec (.getpix f) s = .refused .auxBusy)

/-- SETMIX loads the mixer. ADDPIX, MULPIX, BLNPIX, MIXPIX write D in two clocks and no flags: every component is the
clamped, rounded-up sum of the two products of its kind. In word mode the lower word of D and the word of S that the
selector names are expanded, the mixed pixel is packed into the upper word of D, the old upper word moves down, and the
selector toggles (R915 to R923). At D = $1F2, $1F3 they are refused (U7, log 24). -/
def Obligations.PixelMixerResults : Prop :=
  (∀ (s t : State) (f : DualL) (o : Operands), s.stage4 f.cond (dl f.l f.d) (si f.i f.s) o t →
      exec (.setmix f) s = .next (t.ends { t.cog with mix :=
        ⟨bits o.dv 0 9, bits o.sv 24 8, bits o.sv 16 8, bits o.sv 8 8, bits o.sv 0 8, false⟩ } 0))
    ∧ ∀ (s t : State) (f : DualP) (o : Operands), s.stage4 f.cond (.reg f.d) (si f.i f.s) o t →
      let m := t.cog.mix
      let word := m.m.getLsbD 8
      let long (v : Word) (k : Nat) : Nat := (bits v (8 * k) 8).toNat
      let expanded (v : BitVec 16) (k : Nat) : Nat :=
        if k = 3 then (if v.getLsbD 15 then 0xFF else 0)
        else (bits v (5 * k) 5).toNat * 8 + (bits v (5 * k) 5).toNat / 4
      let dk (k : Nat) : Nat := if word then expanded (bits o.dv 0 16) k else long o.dv k
      let sk (k : Nat) : Nat := if word then expanded (if m.sel then bits o.sv 16 16 else bits o.sv 0 16) k else long o.sv k
      let choose (code : BitVec 3) (fixed : Byte) (other : Nat) : Nat :=
        if code = 0 then 0 else if code = 1 then 0xFF else if code = 2 then sk 3 else if code = 3 then 255 - sk 3
        else if code = 4 then dk 3 else if code = 5 then 255 - dk 3 else if code = 6 then fixed.toNat else other
      let mixed (k : Nat) : Nat × Nat :=
        if k = 3 then (if m.m.getLsbD 7 then sk 3 else m.dab.toNat, if m.m.getLsbD 3 then dk 3 else m.sab.toNat)
        else (choose (bits m.m 4 3) m.dcb (sk k), choose (bits m.m 0 3) m.scb (dk k))
      ∀ g ∈ ([(.addpix f, fun _ => (0xFF, 0xFF)), (.mulpix f, fun k => (sk k, 0)),
              (.blnpix f, fun _ => (255 - sk 3, sk 3)), (.mixpix f, mixed)] : List (Instr × (Nat → Nat × Nat))),
        let out (k : Nat) : Nat := min 255 ((dk k * (g.2 k).1 + sk k * (g.2 k).2 + 255) / 256)
        (isWindow o.d = false → ∃ r,
            exec g.1 s = .next (t.ends (({ t.cog with mix := { m with sel := word != m.sel } } : Cog).writeReg o.d r) 1)
              ∧ (word = false → ∀ k < 4, long r k = out k)
              ∧ (word = true → bits r 0 16 = bits o.dv 16 16 ∧ r.getLsbD 31 = decide (out 3 ≠ 0)
                  ∧ ∀ k < 3, (bits r (16 + 5 * k) 5).toNat = out k / 8))
          ∧ (isWindow o.d = true → exec g.1 s = .refused .indirectWindow)

/-- What the instructions of the units, of memory and of control leave alone when they go on, in the turn in which they
enter stage 4 and in every turn in which they wait there: all memory but the bytes they store, every register but D, AUX
but the long they store, the other tasks, the other cogs, and the flags they do not ask for. Grouped by what may change; the
pin instructions change OUT and DIR, which are registers $1F8 to $1FF; a hub store changes its own bytes above the ROM, at
the address its operands give (R37, R173, R174; that the ROM stays is decision D17, log 4). Not among them are the ALU
instructions (AluInstructionsFrame) and COGNEW, COGINIT, COGSTOP, CLKSET, the locks and JMPTASK, which change other cogs,
the hub or other tasks: what they leave alone stands with their results (CogStartResults, CogClockAndLockControl,
TaskControl). NOP never waits. -/
def Obligations.UnitAndControlInstructionsFrame : Prop :=
  ∀ (s t : State),
    let kept (i : Instr) (writes : RegAddr → Prop) (wz wc : Bool) : Prop :=
      exec i s = .next t → s.frame t nowhere writes nowhere wz wc
    let onlyD (cond : BitVec 4) (d : RegAddr) : RegAddr → Prop := fun a => a = (s.opsNow cond (.reg d) (.raw 0)).d
    let storesHub (i : Instr) (p : Nat) (n : Nat) (wz wc : Bool) : Prop :=
      exec i s = .next t → s.frame t (fun b => 0x00E00 ≤ b ∧ p / n * n ≤ b ∧ b < p / n * n + n) nowhere nowhere wz wc
    let storesAux (i : Instr) (p : Byte) (wz wc : Bool) : Prop :=
      exec i s = .next t → s.frame t nowhere nowhere (· = p) wz wc
    (∀ f : SingleL, ∀ i ∈ [
        .setmap f, .setxch f, .settask f, .setrace f, .saracca f, .saraccb f, .saraccs f, .setptra f, .setptrb f,
        .addptra f, .addptrb f, .subptra f, .subptrb f, .setwide f, .setwidz f, .setptrx f, .setptry f, .addptrx f,
        .addptry f, .subptrx f, .subptry f, .passcnt f, .wait f, .div64d f, .sqrt32 f, .qlog f, .qexp f, .setqi f,
        .setqz f, .cfgdacs f, .cfgdac0 f, .cfgdac1 f, .cfgdac2 f, .cfgdac3 f, .setctra f, .setwava f, .setfrqa f,
        .setphsa f, .addphsa f, .subphsa f, .setvid f, .setvidy f, .setctrb f, .setwavb f, .setfrqb f, .setphsb f,
        .addphsb f, .subphsb f, .setvidi f, .setvidq f, .setpix f, .setpixz f, .setpixu f, .setpixv f, .setpixa f,
        .setpixr f, .setpixg f, .setpixb f, .setpora f, .setporb f, .setporc f, .setpord f, .push f, .setdacs f,
        .setdac0 f, .setdac1 f, .setdac2 f, .setdac3 f],
        kept i nowhere false false)
      ∧ (∀ f : SingleL, ∀ i ∈ [.offp f, .notp f, .clrp f, .setp f, .setpc f, .setpnc f, .setpz f, .setpnz f],
        kept i (fun a => 0x1F8 ≤ a.toNat) false false)
      ∧ (∀ (n : BitVec 6) (f : SingleL), kept (.repd n f) nowhere false false)
      ∧ (∀ (n16 : BitVec 16) (n6 : BitVec 6) (n23 : BitVec 23) (f : Zero0), ∀ i ∈ [
        .repdInf n6 f, .capctra f, .capctrb f, .capctrs f, .setpixw f, .clracca f, .clraccb f, .clraccs f, .synctra f,
        .synctrb f, .dcachex f, .icachex f, .icachep f, .icachen f, .reps n16 n6, .augs n23, .augd n23],
        kept i nowhere false false)
      ∧ (s.enters → kept .nop nowhere false false)
      ∧ (∀ (n2 : BitVec 2) (f : DualL), ∀ i ∈ [
        .frac f, .setacca f, .setaccb f, .maca f, .macb f, .mul32 f, .mul32u f, .div32 f, .div32u f, .div64 f, .div64u
        f, .sqrt64 f, .qsincos f, .qarctan f, .qrotate f, .setsera f, .setserb f, .setctrs f, .setwavs f, .setfrqs f,
        .setphss f, .addphss f, .subphss f, .cfgpins n2 f, .setxfr f, .setmix f, .jp f, .jpd f, .jnp f, .jnpd f],
        kept i nowhere false false)
      ∧ (∀ (n12 : BitVec 12) (f : DualP) (g : DualS), kept (.waitvid f) nowhere false false
          ∧ kept (.waitvidImm n12 g) nowhere false false)
      ∧ (∀ f : Ind, ∀ i ∈ [
        .fixinda f, .fixindb f, .fixinds f, .setindaAbs f, .setindaRel f, .setindbAbs f, .setindbRel f, .setindsAbsAbs
        f, .setindsAbsRel f, .setindsRelAbs f, .setindsRelRel f],
        kept i nowhere false false)
      ∧ (∀ f : SingleZC, ∀ i ∈ [
        .cogid f, .taskid f, .getcnt f, .getcntx f, .getacal f, .getacah f, .getacbl f, .getacbh f, .getptra f,
        .getptrb f, .getptrx f, .getptry f, .serina f, .serinb f, .getmull f, .getmulh f, .getdivq f, .getdivr f,
        .getsqrt f, .getqx f, .getqy f, .getqz f, .getphsa f, .getphza f, .getcosa f, .getsina f, .getphsb f, .getphzb
        f, .getcosb f, .getsinb f, .subcnt f, .getpix f, .pop f, .popa f, .popb f, .popx f, .popy f],
        kept i (onlyD f.cond f.d) f.wz f.wc)
      ∧ (∀ f : Dual, ∀ i ∈ [.rdbyte f, .rdword f, .rdlong f, .rdbytec f, .rdwordc f, .rdlongc f, .rdaux f, .rdauxr f, .jmpsw f,
         .jmpswd f],
        kept i (onlyD f.cond f.d) f.wz f.wc)
      ∧ (kept .switch (onlyD 0b0011 0x1F3) true true ∧ kept .switchd (onlyD 0b0011 0x1F3) true true)
      ∧ (∀ f : DualP, ∀ i ∈ [
        .addpix f, .mulpix f, .blnpix f, .mixpix f, .ijz f, .ijzd f, .ijnz f, .ijnzd f, .djz f, .djzd f, .djnz f,
        .djnzd f, .jz f, .jzd f, .jnz f, .jnzd f, .locbase f, .locbyte f, .locword f, .loclong f, .jmplist f],
        kept i (onlyD f.cond f.d) false false)
      ∧ (∀ f : Loc, kept (.locinst f) (onlyD f.cond f.d) false false)
      ∧ (∀ f : DualP, kept (.waitcnt f) (onlyD f.cond f.d) false false ∧ kept (.waitcntWc f) (onlyD f.cond f.d) false true)
      ∧ (∀ (n : BitVec 2) (f : DualC), kept (.waitpeq n f) nowhere false f.wc ∧ kept (.waitpne n f) nowhere false f.wc)
      ∧ (∀ f : SingleCL, ∀ i ∈ [.waitpx f, .waitpr f, .waitpf f, .cmpcnt f, .serouta f, .seroutb f],
        kept i nowhere false f.wc)
      ∧ (∀ f : SingleZCL, ∀ i ∈ [.getp f, .getnp f, .setzc f], kept i nowhere f.wz f.wc)
      ∧ (∀ f : Zero0ZC, ∀ i ∈ [
        .reta f, .retad f, .retb f, .retbd f, .retx f, .retxd f, .rety f, .retyd f, .ret f, .retd f, .polctra f,
        .polctrb f, .polvid f, .chkptrx f, .chkptry f],
        kept i nowhere f.wz f.wc)
      ∧ (∀ f : Big, ∀ i ∈ [.jmpAbs f, .jmpRel f, .jmpdAbs f, .jmpdRel f, .callAbs f, .callRel f, .calldAbs f, .calldRel f,
         .locptraAbs f, .locptraRel f, .locptrbAbs f, .locptrbRel f],
        kept i nowhere false false)
      ∧ (∀ f : SingleZC, ∀ i ∈ [.jmpReg f, .jmpdReg f, .callReg f, .calldReg f], kept i nowhere f.wz f.wc)
      ∧ (∀ f : Big, (∀ i ∈ [.callaAbs f, .callaRel f, .calladAbs f, .calladRel f], storesHub i s.cog.ptra.toNat 4 false false)
          ∧ (∀ i ∈ [.callbAbs f, .callbRel f, .callbdAbs f, .callbdRel f], storesHub i s.cog.ptrb.toNat 4 false false)
          ∧ (∀ i ∈ [.callxAbs f, .callxRel f, .callxdAbs f, .callxdRel f], storesAux i s.cog.ptrx false false)
          ∧ ∀ i ∈ [.callyAbs f, .callyRel f, .callydAbs f, .callydRel f], storesAux i (255 - s.cog.ptry) false false)
      ∧ (∀ f : SingleZC, (∀ i ∈ [.callaReg f, .calladReg f], storesHub i s.cog.ptra.toNat 4 f.wz f.wc)
          ∧ (∀ i ∈ [.callbReg f, .callbdReg f], storesHub i s.cog.ptrb.toNat 4 f.wz f.wc)
          ∧ (∀ i ∈ [.callxReg f, .callxdReg f], storesAux i s.cog.ptrx f.wz f.wc)
          ∧ ∀ i ∈ [.callyReg f, .callydReg f], storesAux i (255 - s.cog.ptry) f.wz f.wc)
      ∧ (∀ f : SingleL,
          let hub (v : BitVec 9) : HubAddr :=
            ((s.cogNow f.cond (dl f.l f.d) (.raw v)).hubUse true (s.opsNow f.cond (dl f.l f.d) (.raw v)).sv 4).addr
          let aux (v : BitVec 9) : Byte :=
            ((s.cogNow f.cond (dl f.l f.d) (.raw v)).auxUse true (s.opsNow f.cond (dl f.l f.d) (.raw v)).sv).addr
          storesHub (.pusha f) (hub 0x0C1).toNat 4 false false ∧ storesHub (.pushb f) (hub 0x1C1).toNat 4 false false
            ∧ storesAux (.pushx f) (aux 0x161) false false ∧ storesAux (.pushy f) (255 - aux 0x1E1) false false)
      ∧ (∀ f : DualL,
          let o := s.opsNow f.cond (dl f.l f.d) (hubS f.i f.s)
          let c := s.cogNow f.cond (dl f.l f.d) (hubS f.i f.s)
          let x := s.opsNow f.cond (dl f.l f.d) (auxS f.i f.s)
          let e := s.cogNow f.cond (dl f.l f.d) (auxS f.i f.s)
          storesHub (.wrbyte f) (c.hubUse f.i o.sv 1).addr.toNat 1 false false
            ∧ storesHub (.wrword f) (c.hubUse f.i o.sv 2).addr.toNat 2 false false
            ∧ storesHub (.wrlong f) (c.hubUse f.i o.sv 4).addr.toNat 4 false false
            ∧ storesAux (.wraux f) (e.auxUse f.i x.sv).addr false false
            ∧ storesAux (.wrauxr f) (255 - (e.auxUse f.i x.sv).addr) false false)
      ∧ ∀ f : SingleL,
          let o := s.opsNow f.cond (hubD f.l f.d) (.raw 0)
          let c := s.cogNow f.cond (hubD f.l f.d) (.raw 0)
          kept (.rdwide f) nowhere false false ∧ kept (.rdwidec f) nowhere false false
            ∧ storesHub (.wrwide f) (c.hubUse f.l o.dv 32).addr.toNat 32 false false
end

