-- ==== Sys2Proof/Laws/Sparse.lean ====
section
/-!
SUPPORT. Sparse data: what a read gives after a write, and that a write keeps the canonical form.
-/

set_option Elab.async false

namespace Sys2Proof.Machine

open Sys2Proof

variable {α : Type} {dflt : Nat → α} {hi lo a b : Nat} {v : α} {m : Sparse α}

@[simp] theorem Sparse.read_nil (a : Nat) : Sparse.read dflt [] a = dflt a := rfl

theorem Sparse.find?_erase_same (m : Sparse α) (a : Nat) : Sparse.find? (m.erase a) a = none := by
  induction m with
  | nil => rfl
  | cons e m ih =>
    obtain ⟨b, w⟩ := e
    by_cases h : b = a <;> simp [Sparse.erase, Sparse.find?, h, ih]

theorem Sparse.find?_erase_ne (m : Sparse α) (h : b ≠ a) : Sparse.find? (m.erase a) b = Sparse.find? m b := by
  induction m with
  | nil => rfl
  | cons e m ih =>
    obtain ⟨c, w⟩ := e
    by_cases h1 : c = a
    · subst h1
      simp [Sparse.erase, Sparse.find?, ih, Ne.symm h]
    · simp [Sparse.erase, Sparse.find?, h1, ih]

theorem Sparse.find?_insert_ne (m : Sparse α) (h : b ≠ a) :
    Sparse.find? (m.insert a v) b = Sparse.find? m b := by
  induction m with
  | nil => simp [Sparse.insert, Sparse.find?, Ne.symm h]
  | cons e m ih =>
    obtain ⟨c, w⟩ := e
    by_cases h1 : a < c
    · simp [Sparse.insert, Sparse.find?, h1, Ne.symm h]
    · simp [Sparse.insert, Sparse.find?, h1, ih]

theorem Sparse.find?_insert_same (m : Sparse α) (hm : Sparse.find? m a = none) :
    Sparse.find? (m.insert a v) a = some v := by
  induction m with
  | nil => simp [Sparse.insert, Sparse.find?]
  | cons e m ih =>
    obtain ⟨c, w⟩ := e
    by_cases h1 : a < c
    · simp [Sparse.insert, Sparse.find?, h1]
    · have h2 : c ≠ a := by
        rintro rfl
        simp [Sparse.find?] at hm
      simp only [Sparse.find?, h2, if_false] at hm
      simp [Sparse.insert, Sparse.find?, h1, h2, ih hm]

variable [DecidableEq α]

/-- A read of the address written gives the value written. -/
@[simp] theorem Sparse.read_write_same (dflt : Nat → α) (m : Sparse α) (a : Nat) (v : α) :
    Sparse.read dflt (m.write dflt a v) a = v := by
  unfold Sparse.read Sparse.write
  split_ifs with h
  · simp [Sparse.find?_erase_same, h]
  · simp [Sparse.find?_insert_same _ (Sparse.find?_erase_same m a)]

/-- A write leaves every other address alone. -/
theorem Sparse.read_write_ne (dflt : Nat → α) (m : Sparse α) (v : α) (h : b ≠ a) :
    Sparse.read dflt (m.write dflt a v) b = Sparse.read dflt m b := by
  unfold Sparse.read Sparse.write
  split_ifs
  · rw [Sparse.find?_erase_ne m h]
  · rw [Sparse.find?_insert_ne _ h, Sparse.find?_erase_ne m h]

theorem Sparse.wfFrom_mono (h : lo ≤ b) (hm : Sparse.wfFrom dflt hi b m = true) :
    Sparse.wfFrom dflt hi lo m = true := by
  cases m with
  | nil => rfl
  | cons e m =>
    simp only [Sparse.wfFrom, Bool.and_eq_true, decide_eq_true_eq] at hm ⊢
    exact ⟨⟨⟨by omega, hm.1.1.2⟩, hm.1.2⟩, hm.2⟩

theorem Sparse.wfFrom_erase (hm : Sparse.wfFrom dflt hi lo m = true) :
    Sparse.wfFrom dflt hi lo (m.erase a) = true := by
  induction m generalizing lo with
  | nil => rfl
  | cons e m ih =>
    obtain ⟨c, w⟩ := e
    simp only [Sparse.wfFrom, Bool.and_eq_true, decide_eq_true_eq] at hm
    by_cases h : c = a
    · simp only [Sparse.erase, h, if_true]
      exact Sparse.wfFrom_mono (by omega) (ih hm.2)
    · simp only [Sparse.erase, h, if_false, Sparse.wfFrom, Bool.and_eq_true, decide_eq_true_eq]
      exact ⟨hm.1, ih hm.2⟩

theorem Sparse.wfFrom_insert (hl : lo ≤ a) (hh : a < hi) (hv : v ≠ dflt a) (hn : Sparse.find? m a = none)
    (hm : Sparse.wfFrom dflt hi lo m = true) : Sparse.wfFrom dflt hi lo (m.insert a v) = true := by
  induction m generalizing lo with
  | nil => simp [Sparse.insert, Sparse.wfFrom, hl, hh, hv]
  | cons e m ih =>
    obtain ⟨c, w⟩ := e
    simp only [Sparse.wfFrom, Bool.and_eq_true, decide_eq_true_eq] at hm
    by_cases h1 : a < c
    · simp only [Sparse.insert, h1, if_true, Sparse.wfFrom, Bool.and_eq_true, decide_eq_true_eq]
      exact ⟨⟨⟨hl, hh⟩, hv⟩, ⟨⟨by omega, hm.1.1.2⟩, hm.1.2⟩, hm.2⟩
    · have h2 : c ≠ a := by
        rintro rfl
        simp [Sparse.find?] at hn
      simp only [Sparse.find?, h2, if_false] at hn
      simp only [Sparse.insert, h1, if_false, Sparse.wfFrom, Bool.and_eq_true, decide_eq_true_eq]
      exact ⟨hm.1, ih (by omega) hn hm.2⟩

/-- A write to an address of the range keeps the canonical form. -/
theorem Sparse.wfFrom_write (hl : lo ≤ a) (hh : a < hi) (hm : Sparse.wfFrom dflt hi lo m = true) :
    Sparse.wfFrom dflt hi lo (m.write dflt a v) = true := by
  unfold Sparse.write
  split_ifs with h
  · exact Sparse.wfFrom_erase hm
  · exact Sparse.wfFrom_insert hl hh h (Sparse.find?_erase_same m a) (Sparse.wfFrom_erase hm)

/-- AUX read after an AUX write. -/
@[simp] theorem auxRead_auxWrite_same (m : Sparse Word) (a : Byte) (v : Word) : auxRead (auxWrite m a v) a = v :=
  Sparse.read_write_same _ _ _ _

theorem auxRead_auxWrite_ne (m : Sparse Word) (v : Word) {a b : Byte} (h : b ≠ a) :
    auxRead (auxWrite m a v) b = auxRead m b :=
  Sparse.read_write_ne _ _ _ fun e => h (BitVec.eq_of_toNat_eq e)

theorem wfFrom_auxWrite {m : Sparse Word} (a : Byte) (v : Word) (hm : Sparse.wfFrom zeroes 256 0 m = true) :
    Sparse.wfFrom zeroes 256 0 (auxWrite m a v) = true :=
  Sparse.wfFrom_write (Nat.zero_le _) a.isLt hm

end Sys2Proof.Machine
end

