-- ==== Sys2Proof/Laws/Memory.lean ====
section
/-!
SUPPORT. Hub memory: what a read gives after a write (R120 to R128), and that every memory operation keeps the
canonical form.
-/

set_option Elab.async false

namespace Sys2Proof.Machine

open Sys2Proof

/-! ### Bytes -/

/-- A byte of RAM reads as last written. -/
theorem Memory.byte_setByte_same (m : Memory) {a : Nat} (v : Byte) (hl : ramBase ≤ a) (hh : a < hubSize) :
    (m.setByte a v).byte a = v := by
  simp [Memory.setByte, Memory.byte, Nat.not_lt.mpr hl, hh]

/-- A write leaves every other byte alone. -/
theorem Memory.byte_setByte_ne (m : Memory) {a b : Nat} (v : Byte) (h : b ≠ a) : (m.setByte a v).byte b = m.byte b := by
  unfold Memory.setByte Memory.byte
  split_ifs
  · rfl
  · exact Sparse.read_write_ne _ _ _ h
  · rfl

/-- The ROM, and what lies past the last address, cannot be written (D17). -/
theorem Memory.setByte_outside (m : Memory) {a : Nat} (v : Byte) (h : a < ramBase ∨ hubSize ≤ a) : m.setByte a v = m := by
  unfold Memory.setByte
  split_ifs
  · rfl
  · omega
  · rfl

theorem Memory.wf_setByte {m : Memory} (a : Nat) (v : Byte) (hm : m.wf = true) : (m.setByte a v).wf = true := by
  unfold Memory.setByte
  split_ifs with h1 h2
  · exact hm
  · exact Sparse.wfFrom_write (Nat.not_lt.mp h1) h2 hm
  · exact hm

/-! ### Words, longs and wides -/

theorem Memory.wf_setWord {m : Memory} (a : Nat) (v : BitVec 16) (hm : m.wf = true) : (m.setWord a v).wf = true :=
  Memory.wf_setByte _ _ (Memory.wf_setByte _ _ hm)

theorem Memory.wf_setLong {m : Memory} (a : Nat) (v : Word) (hm : m.wf = true) : (m.setLong a v).wf = true :=
  Memory.wf_setByte _ _ (Memory.wf_setByte _ _ (Memory.wf_setByte _ _ (Memory.wf_setByte _ _ hm)))

theorem Memory.wf_setWide {m : Memory} (a : Nat) (w : Octet Word) (hm : m.wf = true) : (m.setWide a w).wf = true := by
  unfold Memory.setWide
  repeat apply Memory.wf_setLong
  exact hm

theorem Memory.byte_setWord_ne (m : Memory) {a b : Nat} (v : BitVec 16) (h : b < a ∨ a + 2 ≤ b) :
    (m.setWord a v).byte b = m.byte b := by
  unfold Memory.setWord
  rw [Memory.byte_setByte_ne _ _ (by omega), Memory.byte_setByte_ne _ _ (by omega)]

theorem Memory.byte_setLong_ne (m : Memory) {a b : Nat} (v : Word) (h : b < a ∨ a + 4 ≤ b) :
    (m.setLong a v).byte b = m.byte b := by
  unfold Memory.setLong
  rw [Memory.byte_setByte_ne _ _ (by omega), Memory.byte_setByte_ne _ _ (by omega),
    Memory.byte_setByte_ne _ _ (by omega), Memory.byte_setByte_ne _ _ (by omega)]

theorem Memory.byte_setWide_ne (m : Memory) {a b : Nat} (w : Octet Word) (h : b < a ∨ a + 32 ≤ b) :
    (m.setWide a w).byte b = m.byte b := by
  unfold Memory.setWide
  rw [Memory.byte_setLong_ne _ _ (by omega), Memory.byte_setLong_ne _ _ (by omega),
    Memory.byte_setLong_ne _ _ (by omega), Memory.byte_setLong_ne _ _ (by omega),
    Memory.byte_setLong_ne _ _ (by omega), Memory.byte_setLong_ne _ _ (by omega),
    Memory.byte_setLong_ne _ _ (by omega), Memory.byte_setLong_ne _ _ (by omega)]

/-- Byte `i` of a long just written (R123). -/
theorem Memory.byte_setLong (m : Memory) {a : Nat} (v : Word) (hl : ramBase ≤ a) (hh : a + 4 ≤ hubSize) {i : Nat}
    (hi : i < 4) : (m.setLong a v).byte (a + i) = bits v (8 * i) 8 := by
  unfold Memory.setLong
  rcases i with _ | _ | _ | _ | i
  · rw [Memory.byte_setByte_ne _ _ (by omega), Memory.byte_setByte_ne _ _ (by omega),
      Memory.byte_setByte_ne _ _ (by omega)]
    exact Memory.byte_setByte_same _ _ (by omega) (by omega)
  · rw [Memory.byte_setByte_ne _ _ (by omega), Memory.byte_setByte_ne _ _ (by omega)]
    exact Memory.byte_setByte_same _ _ (by omega) (by omega)
  · rw [Memory.byte_setByte_ne _ _ (by omega)]
    exact Memory.byte_setByte_same _ _ (by omega) (by omega)
  · exact Memory.byte_setByte_same _ _ (by omega) (by omega)
  · omega

theorem bytes_of_long (v : Word) : bits v 24 8 ++ (bits v 16 8 ++ (bits v 8 8 ++ bits v 0 8)) = v := by
  refine BitVec.eq_of_getLsbD_eq fun i hi => ?_
  simp only [BitVec.getLsbD_append, BitVec.getLsbD_extractLsb']
  interval_cases i <;> simp

/-- A long of RAM reads as last written. -/
theorem Memory.long_setLong_same (m : Memory) {a : Nat} (v : Word) (hl : ramBase ≤ a) (hh : a + 4 ≤ hubSize) :
    (m.setLong a v).long a = v := by
  have h (i : Nat) (hi : i < 4) := Memory.byte_setLong m v hl hh hi
  unfold Memory.long
  rw [h 3 (by omega), h 2 (by omega), h 1 (by omega), show (m.setLong a v).byte a = _ from h 0 (by omega)]
  exact bytes_of_long v

/-- A long write leaves every disjoint long alone. -/
theorem Memory.long_setLong_ne (m : Memory) {a b : Nat} (v : Word) (h : b + 4 ≤ a ∨ a + 4 ≤ b) :
    (m.setLong a v).long b = m.long b := by
  unfold Memory.long
  rw [Memory.byte_setLong_ne _ _ (by omega), Memory.byte_setLong_ne _ _ (by omega),
    Memory.byte_setLong_ne _ _ (by omega), Memory.byte_setLong_ne _ _ (by omega)]

/-- A long written to the ROM is lost (D17). -/
theorem Memory.setLong_rom (m : Memory) {a : Nat} (v : Word) (h : a + 4 ≤ ramBase) : m.setLong a v = m := by
  unfold Memory.setLong
  rw [Memory.setByte_outside m _ (by omega), Memory.setByte_outside m _ (by omega),
    Memory.setByte_outside m _ (by omega), Memory.setByte_outside m _ (by omega)]

/-! ### The hub's four writes -/

theorem Hub.wf_writeByte {h : Hub} (a : HubAddr) (v : Byte) (hm : h.mem.wf = true) : (h.writeByte a v).mem.wf = true :=
  Memory.wf_setByte _ _ hm

theorem Hub.wf_writeWord {h : Hub} (a : HubAddr) (v : BitVec 16) (hm : h.mem.wf = true) :
    (h.writeWord a v).mem.wf = true :=
  Memory.wf_setWord _ _ hm

theorem Hub.wf_writeLong {h : Hub} (a : HubAddr) (v : Word) (hm : h.mem.wf = true) : (h.writeLong a v).mem.wf = true :=
  Memory.wf_setLong _ _ hm

theorem Hub.wf_writeWide {h : Hub} (a : HubAddr) (w : Octet Word) (hm : h.mem.wf = true) :
    (h.writeWide a w).mem.wf = true :=
  Memory.wf_setWide _ _ hm

@[simp] theorem Hub.writeByte_mem (h : Hub) (a : HubAddr) (v : Byte) : (h.writeByte a v).mem = h.mem.setByte a.toNat v := rfl
@[simp] theorem Hub.writeWord_mem (h : Hub) (a : HubAddr) (v : BitVec 16) :
    (h.writeWord a v).mem = h.mem.setWord (alignWord a) v := rfl
@[simp] theorem Hub.writeLong_mem (h : Hub) (a : HubAddr) (v : Word) :
    (h.writeLong a v).mem = h.mem.setLong (alignLong a) v := rfl
@[simp] theorem Hub.writeWide_mem (h : Hub) (a : HubAddr) (w : Octet Word) :
    (h.writeWide a w).mem = h.mem.setWide (alignWide a) w := rfl

/-- An aligned long lies inside hub memory, all of it in the ROM or all of it in RAM (R126). -/
theorem alignLong_bounds (a : HubAddr) : alignLong a + 4 ≤ ramBase ∨ (ramBase ≤ alignLong a ∧ alignLong a + 4 ≤ hubSize) := by
  have := a.isLt
  unfold alignLong ramBase hubSize
  omega

/-! ### A cog image -/

/-- The image a cog start reads is in canonical form (R296). -/
theorem wfFrom_loadImage (m : Memory) (base : HubAddr) (n i : Nat) :
    Sparse.wfFrom zeroes (i + n) i (loadImage m base n i) = true := by
  induction n generalizing i with
  | zero => rfl
  | succ n ih =>
    have h := ih (i + 1)
    rw [Nat.add_right_comm, Nat.add_assoc] at h
    unfold loadImage
    simp only
    split_ifs with hv
    · exact Sparse.wfFrom_mono (Nat.le_succ i) h
    · simp only [Sparse.wfFrom, Bool.and_eq_true]
      exact ⟨⟨⟨decide_eq_true (le_refl i), decide_eq_true (by omega)⟩, decide_eq_true hv⟩, h⟩

end Sys2Proof.Machine
end

