-- ==== Sys2Proof/Laws/State.lean ====
section
/-!
SUPPORT. One lemma per field per update: what an update of the state leaves in each field, so that no later proof
unfolds a record update.
-/

set_option Elab.async false

namespace Sys2Proof.Machine

open Sys2Proof

/-! ### The current cog -/

@[simp] theorem State.cog_setCog (s : State) (c : Cog) : (s.setCog c).cog = c := Octet.get_set_same _ _ _
@[simp] theorem State.setCog_cog (s : State) : s.setCog s.cog = s := by
  unfold State.setCog State.cog
  rw [Octet.set_get]
@[simp] theorem State.setCog_setCog (s : State) (c k : Cog) : (s.setCog c).setCog k = s.setCog k := by
  simp [State.setCog]
@[simp] theorem State.hub_setCog (s : State) (c : Cog) : (s.setCog c).hub = s.hub := rfl
@[simp] theorem State.cur_setCog (s : State) (c : Cog) : (s.setCog c).cur = s.cur := rfl
@[simp] theorem State.turn_setCog (s : State) (c : Cog) : (s.setCog c).turn = s.turn := rfl
@[simp] theorem State.clock_setCog (s : State) (c : Cog) : (s.setCog c).clock = s.clock := rfl
@[simp] theorem State.pads_setCog (s : State) (c : Cog) : (s.setCog c).pads = s.pads := rfl
@[simp] theorem State.cogs_setCog_ne (s : State) (c : Cog) {k : Fin 8} (h : k ≠ s.cur) :
    (s.setCog c).cogs.get k = s.cogs.get k :=
  Octet.get_set_ne _ _ h
@[simp] theorem State.ownsHub_setCog (s : State) (c : Cog) : (s.setCog c).ownsHub = s.ownsHub := rfl
theorem State.task_eq (s : State) : s.task = s.cog.task := rfl
@[simp] theorem State.task_setCog (s : State) (c : Cog) : (s.setCog c).task = c.task := by simp [State.task]
@[simp] theorem State.cog_withHub (s : State) (h : Hub) : ({ s with hub := h } : State).cog = s.cog := rfl

/-! ### The current task -/

@[simp] theorem Cog.task_setTask (c : Cog) (k : Task) : (c.setTask k).task = k := Quad.get_set_same _ _ _
@[simp] theorem Cog.setTask_task (c : Cog) : c.setTask c.task = c := by
  unfold Cog.setTask Cog.task
  rw [Quad.set_get]
@[simp] theorem Cog.setTask_setTask (c : Cog) (k l : Task) : (c.setTask k).setTask l = c.setTask l := by
  unfold Cog.setTask
  exact congrArg (fun q => { c with tasks := q }) (Quad.set_set _ _ _ _)
@[simp] theorem Cog.cur_setTask (c : Cog) (k : Task) : (c.setTask k).cur = c.cur := rfl
@[simp] theorem Cog.tasks_setTask_ne (c : Cog) (k : Task) {t : Fin 4} (h : t ≠ c.cur) :
    (c.setTask k).tasks.get t = c.tasks.get t :=
  Quad.get_set_ne _ _ h

@[simp] theorem Cog.run_setTask (c : Cog) (k : Task) : (c.setTask k).run = c.run := rfl
@[simp] theorem Cog.ram_setTask (c : Cog) (k : Task) : (c.setTask k).ram = c.ram := rfl
@[simp] theorem Cog.aux_setTask (c : Cog) (k : Task) : (c.setTask k).aux = c.aux := rfl
@[simp] theorem Cog.ports_setTask (c : Cog) (k : Task) : (c.setTask k).ports = c.ports := rfl
@[simp] theorem Cog.inda_setTask (c : Cog) (k : Task) : (c.setTask k).inda = c.inda := rfl
@[simp] theorem Cog.indb_setTask (c : Cog) (k : Task) : (c.setTask k).indb = c.indb := rfl
@[simp] theorem Cog.wide_setTask (c : Cog) (k : Task) : (c.setTask k).wide = c.wide := rfl
@[simp] theorem Cog.ptra_setTask (c : Cog) (k : Task) : (c.setTask k).ptra = c.ptra := rfl
@[simp] theorem Cog.ptrb_setTask (c : Cog) (k : Task) : (c.setTask k).ptrb = c.ptrb := rfl
@[simp] theorem Cog.ptrx_setTask (c : Cog) (k : Task) : (c.setTask k).ptrx = c.ptrx := rfl
@[simp] theorem Cog.ptry_setTask (c : Cog) (k : Task) : (c.setTask k).ptry = c.ptry := rfl
@[simp] theorem Cog.sched_setTask (c : Cog) (k : Task) : (c.setTask k).sched = c.sched := rfl
@[simp] theorem Cog.pipe_setTask (c : Cog) (k : Task) : (c.setTask k).pipe = c.pipe := rfl
@[simp] theorem Cog.remap_setTask (c : Cog) (k : Task) : (c.setTask k).remap = c.remap := rfl
@[simp] theorem Cog.lastD_setTask (c : Cog) (k : Task) : (c.setTask k).lastD = c.lastD := rfl
@[simp] theorem Cog.chain_setTask (c : Cog) (k : Task) : (c.setTask k).chain = c.chain := rfl
@[simp] theorem Cog.trace_setTask (c : Cog) (k : Task) : (c.setTask k).trace = c.trace := rfl
@[simp] theorem Cog.math_setTask (c : Cog) (k : Task) : (c.setTask k).math = c.math := rfl
@[simp] theorem Cog.ctra_setTask (c : Cog) (k : Task) : (c.setTask k).ctra = c.ctra := rfl
@[simp] theorem Cog.ctrb_setTask (c : Cog) (k : Task) : (c.setTask k).ctrb = c.ctrb := rfl
@[simp] theorem Cog.dac_setTask (c : Cog) (k : Task) : (c.setTask k).dac = c.dac := rfl
@[simp] theorem Cog.vid_setTask (c : Cog) (k : Task) : (c.setTask k).vid = c.vid := rfl
@[simp] theorem Cog.pix_setTask (c : Cog) (k : Task) : (c.setTask k).pix = c.pix := rfl
@[simp] theorem Cog.mix_setTask (c : Cog) (k : Task) : (c.setTask k).mix = c.mix := rfl
@[simp] theorem Cog.xfr_setTask (c : Cog) (k : Task) : (c.setTask k).xfr = c.xfr := rfl
@[simp] theorem Cog.sera_setTask (c : Cog) (k : Task) : (c.setTask k).sera = c.sera := rfl
@[simp] theorem Cog.serb_setTask (c : Cog) (k : Task) : (c.setTask k).serb = c.serb := rfl
@[simp] theorem Cog.icache_setTask (c : Cog) (k : Task) : (c.setTask k).icache = c.icache := rfl
@[simp] theorem Cog.opq_setTask (c : Cog) (k : Task) : (c.setTask k).opq = c.opq := rfl
@[simp] theorem Cog.rom_setTask (c : Cog) (k : Task) : (c.setTask k).rom = c.rom := rfl
@[simp] theorem Cog.stage4_setTask (c : Cog) (k : Task) : (c.setTask k).stage4 = c.stage4 := rfl

/-! ### Flags -/

@[simp] theorem Task.z_setFlags (k : Task) (wz wc z c : Bool) : (k.setFlags wz wc z c).z = if wz then z else k.z := rfl
@[simp] theorem Task.c_setFlags (k : Task) (wz wc z c : Bool) : (k.setFlags wz wc z c).c = if wc then c else k.c := rfl

@[simp] theorem Task.pc_setFlags (k : Task) (wz wc z c : Bool) : (k.setFlags wz wc z c).pc = k.pc := rfl
@[simp] theorem Task.stack_setFlags (k : Task) (wz wc z c : Bool) : (k.setFlags wz wc z c).stack = k.stack := rfl
@[simp] theorem Task.augs_setFlags (k : Task) (wz wc z c : Bool) : (k.setFlags wz wc z c).augs = k.augs := rfl
@[simp] theorem Task.augd_setFlags (k : Task) (wz wc z c : Bool) : (k.setFlags wz wc z c).augd = k.augd := rfl
@[simp] theorem Task.rep_setFlags (k : Task) (wz wc z c : Bool) : (k.setFlags wz wc z c).rep = k.rep := rfl
@[simp] theorem Task.dlyTarget_setFlags (k : Task) (wz wc z c : Bool) : (k.setFlags wz wc z c).dlyTarget = k.dlyTarget := rfl
@[simp] theorem Task.dlyCount_setFlags (k : Task) (wz wc z c : Bool) : (k.setFlags wz wc z c).dlyCount = k.dlyCount := rfl
@[simp] theorem Task.setFlags_none (k : Task) (z c : Bool) : k.setFlags false false z c = k := rfl
@[simp] theorem Cog.setFlags_none (x : Cog) (z c : Bool) : x.setFlags false false z c = x := Cog.setTask_task x
@[simp] theorem Cog.task_setFlags (x : Cog) (wz wc z c : Bool) :
    (x.setFlags wz wc z c).task = x.task.setFlags wz wc z c :=
  Cog.task_setTask _ _
@[simp] theorem Cog.cur_setFlags (x : Cog) (wz wc z c : Bool) : (x.setFlags wz wc z c).cur = x.cur := rfl
@[simp] theorem Cog.tasks_setFlags_ne (x : Cog) (wz wc z c : Bool) {t : Fin 4} (h : t ≠ x.cur) :
    (x.setFlags wz wc z c).tasks.get t = x.tasks.get t :=
  Quad.get_set_ne _ _ h

@[simp] theorem Cog.run_setFlags (c : Cog) (wz wc z d : Bool) : (c.setFlags wz wc z d).run = c.run := rfl
@[simp] theorem Cog.ram_setFlags (c : Cog) (wz wc z d : Bool) : (c.setFlags wz wc z d).ram = c.ram := rfl
@[simp] theorem Cog.aux_setFlags (c : Cog) (wz wc z d : Bool) : (c.setFlags wz wc z d).aux = c.aux := rfl
@[simp] theorem Cog.ports_setFlags (c : Cog) (wz wc z d : Bool) : (c.setFlags wz wc z d).ports = c.ports := rfl
@[simp] theorem Cog.inda_setFlags (c : Cog) (wz wc z d : Bool) : (c.setFlags wz wc z d).inda = c.inda := rfl
@[simp] theorem Cog.indb_setFlags (c : Cog) (wz wc z d : Bool) : (c.setFlags wz wc z d).indb = c.indb := rfl
@[simp] theorem Cog.wide_setFlags (c : Cog) (wz wc z d : Bool) : (c.setFlags wz wc z d).wide = c.wide := rfl
@[simp] theorem Cog.ptra_setFlags (c : Cog) (wz wc z d : Bool) : (c.setFlags wz wc z d).ptra = c.ptra := rfl
@[simp] theorem Cog.ptrb_setFlags (c : Cog) (wz wc z d : Bool) : (c.setFlags wz wc z d).ptrb = c.ptrb := rfl
@[simp] theorem Cog.ptrx_setFlags (c : Cog) (wz wc z d : Bool) : (c.setFlags wz wc z d).ptrx = c.ptrx := rfl
@[simp] theorem Cog.ptry_setFlags (c : Cog) (wz wc z d : Bool) : (c.setFlags wz wc z d).ptry = c.ptry := rfl
@[simp] theorem Cog.sched_setFlags (c : Cog) (wz wc z d : Bool) : (c.setFlags wz wc z d).sched = c.sched := rfl
@[simp] theorem Cog.pipe_setFlags (c : Cog) (wz wc z d : Bool) : (c.setFlags wz wc z d).pipe = c.pipe := rfl
@[simp] theorem Cog.remap_setFlags (c : Cog) (wz wc z d : Bool) : (c.setFlags wz wc z d).remap = c.remap := rfl
@[simp] theorem Cog.lastD_setFlags (c : Cog) (wz wc z d : Bool) : (c.setFlags wz wc z d).lastD = c.lastD := rfl
@[simp] theorem Cog.chain_setFlags (c : Cog) (wz wc z d : Bool) : (c.setFlags wz wc z d).chain = c.chain := rfl
@[simp] theorem Cog.trace_setFlags (c : Cog) (wz wc z d : Bool) : (c.setFlags wz wc z d).trace = c.trace := rfl
@[simp] theorem Cog.math_setFlags (c : Cog) (wz wc z d : Bool) : (c.setFlags wz wc z d).math = c.math := rfl
@[simp] theorem Cog.ctra_setFlags (c : Cog) (wz wc z d : Bool) : (c.setFlags wz wc z d).ctra = c.ctra := rfl
@[simp] theorem Cog.ctrb_setFlags (c : Cog) (wz wc z d : Bool) : (c.setFlags wz wc z d).ctrb = c.ctrb := rfl
@[simp] theorem Cog.dac_setFlags (c : Cog) (wz wc z d : Bool) : (c.setFlags wz wc z d).dac = c.dac := rfl
@[simp] theorem Cog.vid_setFlags (c : Cog) (wz wc z d : Bool) : (c.setFlags wz wc z d).vid = c.vid := rfl
@[simp] theorem Cog.pix_setFlags (c : Cog) (wz wc z d : Bool) : (c.setFlags wz wc z d).pix = c.pix := rfl
@[simp] theorem Cog.mix_setFlags (c : Cog) (wz wc z d : Bool) : (c.setFlags wz wc z d).mix = c.mix := rfl
@[simp] theorem Cog.xfr_setFlags (c : Cog) (wz wc z d : Bool) : (c.setFlags wz wc z d).xfr = c.xfr := rfl
@[simp] theorem Cog.sera_setFlags (c : Cog) (wz wc z d : Bool) : (c.setFlags wz wc z d).sera = c.sera := rfl
@[simp] theorem Cog.serb_setFlags (c : Cog) (wz wc z d : Bool) : (c.setFlags wz wc z d).serb = c.serb := rfl
@[simp] theorem Cog.icache_setFlags (c : Cog) (wz wc z d : Bool) : (c.setFlags wz wc z d).icache = c.icache := rfl
@[simp] theorem Cog.opq_setFlags (c : Cog) (wz wc z d : Bool) : (c.setFlags wz wc z d).opq = c.opq := rfl
@[simp] theorem Cog.rom_setFlags (c : Cog) (wz wc z d : Bool) : (c.setFlags wz wc z d).rom = c.rom := rfl
@[simp] theorem Cog.stage4_setFlags (c : Cog) (wz wc z d : Bool) : (c.setFlags wz wc z d).stage4 = c.stage4 := rfl

/-! ### Register writes -/

@[simp] theorem Cog.run_putPlain (c : Cog) (a : RegAddr) (v : Word) : (c.putPlain a v).run = c.run := by
  unfold Cog.putPlain; split_ifs <;> rfl
@[simp] theorem Cog.aux_putPlain (c : Cog) (a : RegAddr) (v : Word) : (c.putPlain a v).aux = c.aux := by
  unfold Cog.putPlain; split_ifs <;> rfl
@[simp] theorem Cog.inda_putPlain (c : Cog) (a : RegAddr) (v : Word) : (c.putPlain a v).inda = c.inda := by
  unfold Cog.putPlain; split_ifs <;> rfl
@[simp] theorem Cog.indb_putPlain (c : Cog) (a : RegAddr) (v : Word) : (c.putPlain a v).indb = c.indb := by
  unfold Cog.putPlain; split_ifs <;> rfl
@[simp] theorem Cog.wide_putPlain (c : Cog) (a : RegAddr) (v : Word) : (c.putPlain a v).wide = c.wide := by
  unfold Cog.putPlain; split_ifs <;> rfl
@[simp] theorem Cog.ptra_putPlain (c : Cog) (a : RegAddr) (v : Word) : (c.putPlain a v).ptra = c.ptra := by
  unfold Cog.putPlain; split_ifs <;> rfl
@[simp] theorem Cog.ptrb_putPlain (c : Cog) (a : RegAddr) (v : Word) : (c.putPlain a v).ptrb = c.ptrb := by
  unfold Cog.putPlain; split_ifs <;> rfl
@[simp] theorem Cog.ptrx_putPlain (c : Cog) (a : RegAddr) (v : Word) : (c.putPlain a v).ptrx = c.ptrx := by
  unfold Cog.putPlain; split_ifs <;> rfl
@[simp] theorem Cog.ptry_putPlain (c : Cog) (a : RegAddr) (v : Word) : (c.putPlain a v).ptry = c.ptry := by
  unfold Cog.putPlain; split_ifs <;> rfl
@[simp] theorem Cog.tasks_putPlain (c : Cog) (a : RegAddr) (v : Word) : (c.putPlain a v).tasks = c.tasks := by
  unfold Cog.putPlain; split_ifs <;> rfl
@[simp] theorem Cog.sched_putPlain (c : Cog) (a : RegAddr) (v : Word) : (c.putPlain a v).sched = c.sched := by
  unfold Cog.putPlain; split_ifs <;> rfl
@[simp] theorem Cog.pipe_putPlain (c : Cog) (a : RegAddr) (v : Word) : (c.putPlain a v).pipe = c.pipe := by
  unfold Cog.putPlain; split_ifs <;> rfl
@[simp] theorem Cog.remap_putPlain (c : Cog) (a : RegAddr) (v : Word) : (c.putPlain a v).remap = c.remap := by
  unfold Cog.putPlain; split_ifs <;> rfl
@[simp] theorem Cog.lastD_putPlain (c : Cog) (a : RegAddr) (v : Word) : (c.putPlain a v).lastD = c.lastD := by
  unfold Cog.putPlain; split_ifs <;> rfl
@[simp] theorem Cog.chain_putPlain (c : Cog) (a : RegAddr) (v : Word) : (c.putPlain a v).chain = c.chain := by
  unfold Cog.putPlain; split_ifs <;> rfl
@[simp] theorem Cog.trace_putPlain (c : Cog) (a : RegAddr) (v : Word) : (c.putPlain a v).trace = c.trace := by
  unfold Cog.putPlain; split_ifs <;> rfl
@[simp] theorem Cog.math_putPlain (c : Cog) (a : RegAddr) (v : Word) : (c.putPlain a v).math = c.math := by
  unfold Cog.putPlain; split_ifs <;> rfl
@[simp] theorem Cog.ctra_putPlain (c : Cog) (a : RegAddr) (v : Word) : (c.putPlain a v).ctra = c.ctra := by
  unfold Cog.putPlain; split_ifs <;> rfl
@[simp] theorem Cog.ctrb_putPlain (c : Cog) (a : RegAddr) (v : Word) : (c.putPlain a v).ctrb = c.ctrb := by
  unfold Cog.putPlain; split_ifs <;> rfl
@[simp] theorem Cog.dac_putPlain (c : Cog) (a : RegAddr) (v : Word) : (c.putPlain a v).dac = c.dac := by
  unfold Cog.putPlain; split_ifs <;> rfl
@[simp] theorem Cog.vid_putPlain (c : Cog) (a : RegAddr) (v : Word) : (c.putPlain a v).vid = c.vid := by
  unfold Cog.putPlain; split_ifs <;> rfl
@[simp] theorem Cog.pix_putPlain (c : Cog) (a : RegAddr) (v : Word) : (c.putPlain a v).pix = c.pix := by
  unfold Cog.putPlain; split_ifs <;> rfl
@[simp] theorem Cog.mix_putPlain (c : Cog) (a : RegAddr) (v : Word) : (c.putPlain a v).mix = c.mix := by
  unfold Cog.putPlain; split_ifs <;> rfl
@[simp] theorem Cog.xfr_putPlain (c : Cog) (a : RegAddr) (v : Word) : (c.putPlain a v).xfr = c.xfr := by
  unfold Cog.putPlain; split_ifs <;> rfl
@[simp] theorem Cog.sera_putPlain (c : Cog) (a : RegAddr) (v : Word) : (c.putPlain a v).sera = c.sera := by
  unfold Cog.putPlain; split_ifs <;> rfl
@[simp] theorem Cog.serb_putPlain (c : Cog) (a : RegAddr) (v : Word) : (c.putPlain a v).serb = c.serb := by
  unfold Cog.putPlain; split_ifs <;> rfl
@[simp] theorem Cog.icache_putPlain (c : Cog) (a : RegAddr) (v : Word) : (c.putPlain a v).icache = c.icache := by
  unfold Cog.putPlain; split_ifs <;> rfl
@[simp] theorem Cog.opq_putPlain (c : Cog) (a : RegAddr) (v : Word) : (c.putPlain a v).opq = c.opq := by
  unfold Cog.putPlain; split_ifs <;> rfl
@[simp] theorem Cog.stage4_putPlain (c : Cog) (a : RegAddr) (v : Word) : (c.putPlain a v).stage4 = c.stage4 := by
  unfold Cog.putPlain; split_ifs <;> rfl
@[simp] theorem Cog.run_writeReg (c : Cog) (a : RegAddr) (v : Word) : (c.writeReg a v).run = c.run :=
  Cog.run_putPlain c a v
@[simp] theorem Cog.aux_writeReg (c : Cog) (a : RegAddr) (v : Word) : (c.writeReg a v).aux = c.aux :=
  Cog.aux_putPlain c a v
@[simp] theorem Cog.inda_writeReg (c : Cog) (a : RegAddr) (v : Word) : (c.writeReg a v).inda = c.inda :=
  Cog.inda_putPlain c a v
@[simp] theorem Cog.indb_writeReg (c : Cog) (a : RegAddr) (v : Word) : (c.writeReg a v).indb = c.indb :=
  Cog.indb_putPlain c a v
@[simp] theorem Cog.ptra_writeReg (c : Cog) (a : RegAddr) (v : Word) : (c.writeReg a v).ptra = c.ptra :=
  Cog.ptra_putPlain c a v
@[simp] theorem Cog.ptrb_writeReg (c : Cog) (a : RegAddr) (v : Word) : (c.writeReg a v).ptrb = c.ptrb :=
  Cog.ptrb_putPlain c a v
@[simp] theorem Cog.ptrx_writeReg (c : Cog) (a : RegAddr) (v : Word) : (c.writeReg a v).ptrx = c.ptrx :=
  Cog.ptrx_putPlain c a v
@[simp] theorem Cog.ptry_writeReg (c : Cog) (a : RegAddr) (v : Word) : (c.writeReg a v).ptry = c.ptry :=
  Cog.ptry_putPlain c a v
@[simp] theorem Cog.tasks_writeReg (c : Cog) (a : RegAddr) (v : Word) : (c.writeReg a v).tasks = c.tasks :=
  Cog.tasks_putPlain c a v
@[simp] theorem Cog.sched_writeReg (c : Cog) (a : RegAddr) (v : Word) : (c.writeReg a v).sched = c.sched :=
  Cog.sched_putPlain c a v
@[simp] theorem Cog.remap_writeReg (c : Cog) (a : RegAddr) (v : Word) : (c.writeReg a v).remap = c.remap :=
  Cog.remap_putPlain c a v
@[simp] theorem Cog.chain_writeReg (c : Cog) (a : RegAddr) (v : Word) : (c.writeReg a v).chain = c.chain :=
  Cog.chain_putPlain c a v
@[simp] theorem Cog.trace_writeReg (c : Cog) (a : RegAddr) (v : Word) : (c.writeReg a v).trace = c.trace :=
  Cog.trace_putPlain c a v
@[simp] theorem Cog.math_writeReg (c : Cog) (a : RegAddr) (v : Word) : (c.writeReg a v).math = c.math :=
  Cog.math_putPlain c a v
@[simp] theorem Cog.ctra_writeReg (c : Cog) (a : RegAddr) (v : Word) : (c.writeReg a v).ctra = c.ctra :=
  Cog.ctra_putPlain c a v
@[simp] theorem Cog.ctrb_writeReg (c : Cog) (a : RegAddr) (v : Word) : (c.writeReg a v).ctrb = c.ctrb :=
  Cog.ctrb_putPlain c a v
@[simp] theorem Cog.dac_writeReg (c : Cog) (a : RegAddr) (v : Word) : (c.writeReg a v).dac = c.dac :=
  Cog.dac_putPlain c a v
@[simp] theorem Cog.vid_writeReg (c : Cog) (a : RegAddr) (v : Word) : (c.writeReg a v).vid = c.vid :=
  Cog.vid_putPlain c a v
@[simp] theorem Cog.pix_writeReg (c : Cog) (a : RegAddr) (v : Word) : (c.writeReg a v).pix = c.pix :=
  Cog.pix_putPlain c a v
@[simp] theorem Cog.mix_writeReg (c : Cog) (a : RegAddr) (v : Word) : (c.writeReg a v).mix = c.mix :=
  Cog.mix_putPlain c a v
@[simp] theorem Cog.xfr_writeReg (c : Cog) (a : RegAddr) (v : Word) : (c.writeReg a v).xfr = c.xfr :=
  Cog.xfr_putPlain c a v
@[simp] theorem Cog.sera_writeReg (c : Cog) (a : RegAddr) (v : Word) : (c.writeReg a v).sera = c.sera :=
  Cog.sera_putPlain c a v
@[simp] theorem Cog.serb_writeReg (c : Cog) (a : RegAddr) (v : Word) : (c.writeReg a v).serb = c.serb :=
  Cog.serb_putPlain c a v
@[simp] theorem Cog.icache_writeReg (c : Cog) (a : RegAddr) (v : Word) : (c.writeReg a v).icache = c.icache :=
  Cog.icache_putPlain c a v
@[simp] theorem Cog.opq_writeReg (c : Cog) (a : RegAddr) (v : Word) : (c.writeReg a v).opq = c.opq :=
  Cog.opq_putPlain c a v
@[simp] theorem Cog.pipe_writeReg (c : Cog) (a : RegAddr) (v : Word) : (c.writeReg a v).pipe = c.pipe :=
  Cog.pipe_putPlain c a v
@[simp] theorem Cog.stage4_writeReg (c : Cog) (a : RegAddr) (v : Word) : (c.writeReg a v).stage4 = c.stage4 :=
  Cog.stage4_putPlain c a v
@[simp] theorem Cog.rom_writeReg (c : Cog) (a : RegAddr) (v : Word) : (c.writeReg a v).rom = (c.putPlain a v).rom := rfl
@[simp] theorem Cog.ram_writeReg (c : Cog) (a : RegAddr) (v : Word) : (c.writeReg a v).ram = (c.putPlain a v).ram := rfl
@[simp] theorem Cog.ports_writeReg (c : Cog) (a : RegAddr) (v : Word) : (c.writeReg a v).ports = (c.putPlain a v).ports := rfl
@[simp] theorem Cog.lastD_writeReg (c : Cog) (a : RegAddr) (v : Word) : (c.writeReg a v).lastD = v := rfl
@[simp] theorem Cog.cur_putPlain (c : Cog) (a : RegAddr) (v : Word) : (c.putPlain a v).cur = c.cur := by
  simp [Cog.cur]
@[simp] theorem Cog.cur_writeReg (c : Cog) (a : RegAddr) (v : Word) : (c.writeReg a v).cur = c.cur := by
  simp [Cog.cur]
@[simp] theorem Cog.task_writeReg (c : Cog) (a : RegAddr) (v : Word) : (c.writeReg a v).task = c.task := by
  simp [Cog.task]
@[simp] theorem Cog.task_putPlain (c : Cog) (a : RegAddr) (v : Word) : (c.putPlain a v).task = c.task := by
  simp [Cog.task]

/-! ### The end of an instruction cycle -/

@[simp] theorem Cog.run_endCycle (c : Cog) (stall : Nat) : (c.endCycle stall).run = c.run := rfl
@[simp] theorem Cog.ram_endCycle (c : Cog) (stall : Nat) : (c.endCycle stall).ram = c.ram := rfl
@[simp] theorem Cog.aux_endCycle (c : Cog) (stall : Nat) : (c.endCycle stall).aux = c.aux := rfl
@[simp] theorem Cog.ports_endCycle (c : Cog) (stall : Nat) : (c.endCycle stall).ports = c.ports := rfl
@[simp] theorem Cog.inda_endCycle (c : Cog) (stall : Nat) : (c.endCycle stall).inda = c.inda := rfl
@[simp] theorem Cog.indb_endCycle (c : Cog) (stall : Nat) : (c.endCycle stall).indb = c.indb := rfl
@[simp] theorem Cog.ptra_endCycle (c : Cog) (stall : Nat) : (c.endCycle stall).ptra = c.ptra := rfl
@[simp] theorem Cog.ptrb_endCycle (c : Cog) (stall : Nat) : (c.endCycle stall).ptrb = c.ptrb := rfl
@[simp] theorem Cog.ptrx_endCycle (c : Cog) (stall : Nat) : (c.endCycle stall).ptrx = c.ptrx := rfl
@[simp] theorem Cog.ptry_endCycle (c : Cog) (stall : Nat) : (c.endCycle stall).ptry = c.ptry := rfl
@[simp] theorem Cog.tasks_endCycle (c : Cog) (stall : Nat) : (c.endCycle stall).tasks = c.tasks := rfl
@[simp] theorem Cog.lastD_endCycle (c : Cog) (stall : Nat) : (c.endCycle stall).lastD = c.lastD := rfl
@[simp] theorem Cog.chain_endCycle (c : Cog) (stall : Nat) : (c.endCycle stall).chain = c.chain := rfl
@[simp] theorem Cog.trace_endCycle (c : Cog) (stall : Nat) : (c.endCycle stall).trace = c.trace := rfl
@[simp] theorem Cog.math_endCycle (c : Cog) (stall : Nat) : (c.endCycle stall).math = c.math := rfl
@[simp] theorem Cog.ctra_endCycle (c : Cog) (stall : Nat) : (c.endCycle stall).ctra = c.ctra := rfl
@[simp] theorem Cog.ctrb_endCycle (c : Cog) (stall : Nat) : (c.endCycle stall).ctrb = c.ctrb := rfl
@[simp] theorem Cog.dac_endCycle (c : Cog) (stall : Nat) : (c.endCycle stall).dac = c.dac := rfl
@[simp] theorem Cog.vid_endCycle (c : Cog) (stall : Nat) : (c.endCycle stall).vid = c.vid := rfl
@[simp] theorem Cog.pix_endCycle (c : Cog) (stall : Nat) : (c.endCycle stall).pix = c.pix := rfl
@[simp] theorem Cog.mix_endCycle (c : Cog) (stall : Nat) : (c.endCycle stall).mix = c.mix := rfl
@[simp] theorem Cog.xfr_endCycle (c : Cog) (stall : Nat) : (c.endCycle stall).xfr = c.xfr := rfl
@[simp] theorem Cog.sera_endCycle (c : Cog) (stall : Nat) : (c.endCycle stall).sera = c.sera := rfl
@[simp] theorem Cog.serb_endCycle (c : Cog) (stall : Nat) : (c.endCycle stall).serb = c.serb := rfl
@[simp] theorem Cog.icache_endCycle (c : Cog) (stall : Nat) : (c.endCycle stall).icache = c.icache := rfl
@[simp] theorem Cog.opq_endCycle (c : Cog) (stall : Nat) : (c.endCycle stall).opq = c.opq := rfl
@[simp] theorem Cog.rom_endCycle (c : Cog) (stall : Nat) : (c.endCycle stall).rom = c.rom := rfl
@[simp] theorem Cog.stage4_endCycle (c : Cog) (stall : Nat) : (c.endCycle stall).stage4 = c.stage4 := rfl

@[simp] theorem Cog.run_retire (c : Cog) (stall : Nat) : (c.retire stall).run = c.run := rfl
@[simp] theorem Cog.ram_retire (c : Cog) (stall : Nat) : (c.retire stall).ram = c.ram := rfl
@[simp] theorem Cog.aux_retire (c : Cog) (stall : Nat) : (c.retire stall).aux = c.aux := rfl
@[simp] theorem Cog.ports_retire (c : Cog) (stall : Nat) : (c.retire stall).ports = c.ports := rfl
@[simp] theorem Cog.inda_retire (c : Cog) (stall : Nat) : (c.retire stall).inda = c.inda := rfl
@[simp] theorem Cog.indb_retire (c : Cog) (stall : Nat) : (c.retire stall).indb = c.indb := rfl
@[simp] theorem Cog.ptra_retire (c : Cog) (stall : Nat) : (c.retire stall).ptra = c.ptra := rfl
@[simp] theorem Cog.ptrb_retire (c : Cog) (stall : Nat) : (c.retire stall).ptrb = c.ptrb := rfl
@[simp] theorem Cog.ptrx_retire (c : Cog) (stall : Nat) : (c.retire stall).ptrx = c.ptrx := rfl
@[simp] theorem Cog.ptry_retire (c : Cog) (stall : Nat) : (c.retire stall).ptry = c.ptry := rfl
@[simp] theorem Cog.lastD_retire (c : Cog) (stall : Nat) : (c.retire stall).lastD = c.lastD := rfl
@[simp] theorem Cog.chain_retire (c : Cog) (stall : Nat) : (c.retire stall).chain = c.chain := rfl
@[simp] theorem Cog.trace_retire (c : Cog) (stall : Nat) : (c.retire stall).trace = c.trace := rfl
@[simp] theorem Cog.math_retire (c : Cog) (stall : Nat) : (c.retire stall).math = c.math := rfl
@[simp] theorem Cog.ctra_retire (c : Cog) (stall : Nat) : (c.retire stall).ctra = c.ctra := rfl
@[simp] theorem Cog.ctrb_retire (c : Cog) (stall : Nat) : (c.retire stall).ctrb = c.ctrb := rfl
@[simp] theorem Cog.dac_retire (c : Cog) (stall : Nat) : (c.retire stall).dac = c.dac := rfl
@[simp] theorem Cog.vid_retire (c : Cog) (stall : Nat) : (c.retire stall).vid = c.vid := rfl
@[simp] theorem Cog.pix_retire (c : Cog) (stall : Nat) : (c.retire stall).pix = c.pix := rfl
@[simp] theorem Cog.mix_retire (c : Cog) (stall : Nat) : (c.retire stall).mix = c.mix := rfl
@[simp] theorem Cog.xfr_retire (c : Cog) (stall : Nat) : (c.retire stall).xfr = c.xfr := rfl
@[simp] theorem Cog.sera_retire (c : Cog) (stall : Nat) : (c.retire stall).sera = c.sera := rfl
@[simp] theorem Cog.serb_retire (c : Cog) (stall : Nat) : (c.retire stall).serb = c.serb := rfl
@[simp] theorem Cog.icache_retire (c : Cog) (stall : Nat) : (c.retire stall).icache = c.icache := rfl
@[simp] theorem Cog.opq_retire (c : Cog) (stall : Nat) : (c.retire stall).opq = c.opq := rfl
@[simp] theorem Cog.rom_retire (c : Cog) (stall : Nat) : (c.retire stall).rom = c.rom := rfl
@[simp] theorem Cog.stage4_retire (c : Cog) (stall : Nat) : (c.retire stall).stage4 = c.stage4 := rfl
@[simp] theorem Cog.tasks_retire (c : Cog) (stall : Nat) : (c.retire stall).tasks = c.tasks.set c.cur c.task.advance := rfl
@[simp] theorem Cog.sched_retire (c : Cog) (stall : Nat) : (c.retire stall).sched = c.sched.advance := rfl
@[simp] theorem Cog.sched_endCycle (c : Cog) (stall : Nat) : (c.endCycle stall).sched = c.sched.advance := rfl
@[simp] theorem Cog.pipe_retire (c : Cog) (stall : Nat) : (c.retire stall).pipe = c.pipe.advance stall := rfl
@[simp] theorem Cog.pipe_endCycle (c : Cog) (stall : Nat) : (c.endCycle stall).pipe = c.pipe.advance stall := rfl
@[simp] theorem Pipe.waiting_advance (p : Pipe) (stall : Nat) : (p.advance stall).waiting = none := rfl
@[simp] theorem Pipe.stall_advance (p : Pipe) (stall : Nat) : (p.advance stall).stall = stall := rfl
@[simp] theorem Pipe.queue_advance (p : Pipe) (stall : Nat) : (p.advance stall).queue = p.queue := rfl
@[simp] theorem Wide.regs_retire (c : Cog) (stall : Nat) : (c.retire stall).wide.regs = c.wide.regs := rfl

@[simp] theorem Task.z_advance (k : Task) : k.advance.z = k.z := by
  unfold Task.advance; dsimp only; split_ifs <;> rfl
@[simp] theorem Task.c_advance (k : Task) : k.advance.c = k.c := by
  unfold Task.advance; dsimp only; split_ifs <;> rfl
@[simp] theorem Task.stack_advance (k : Task) : k.advance.stack = k.stack := by
  unfold Task.advance; dsimp only; split_ifs <;> rfl
@[simp] theorem Task.augs_advance (k : Task) : k.advance.augs = k.augs := by
  unfold Task.advance; dsimp only; split_ifs <;> rfl
@[simp] theorem Task.augd_advance (k : Task) : k.advance.augd = k.augd := by
  unfold Task.advance; dsimp only; split_ifs <;> rfl

/-! ### Operand decode -/

@[simp] theorem Cog.run_decoded (c : Cog) (cond : BitVec 4) (du : DUse) (su : SUse) : (c.decoded cond du su).run = c.run := rfl
@[simp] theorem Cog.ram_decoded (c : Cog) (cond : BitVec 4) (du : DUse) (su : SUse) : (c.decoded cond du su).ram = c.ram := rfl
@[simp] theorem Cog.aux_decoded (c : Cog) (cond : BitVec 4) (du : DUse) (su : SUse) : (c.decoded cond du su).aux = c.aux := rfl
@[simp] theorem Cog.ports_decoded (c : Cog) (cond : BitVec 4) (du : DUse) (su : SUse) : (c.decoded cond du su).ports = c.ports := rfl
@[simp] theorem Cog.wide_decoded (c : Cog) (cond : BitVec 4) (du : DUse) (su : SUse) : (c.decoded cond du su).wide = c.wide := rfl
@[simp] theorem Cog.ptra_decoded (c : Cog) (cond : BitVec 4) (du : DUse) (su : SUse) : (c.decoded cond du su).ptra = c.ptra := rfl
@[simp] theorem Cog.ptrb_decoded (c : Cog) (cond : BitVec 4) (du : DUse) (su : SUse) : (c.decoded cond du su).ptrb = c.ptrb := rfl
@[simp] theorem Cog.ptrx_decoded (c : Cog) (cond : BitVec 4) (du : DUse) (su : SUse) : (c.decoded cond du su).ptrx = c.ptrx := rfl
@[simp] theorem Cog.ptry_decoded (c : Cog) (cond : BitVec 4) (du : DUse) (su : SUse) : (c.decoded cond du su).ptry = c.ptry := rfl
@[simp] theorem Cog.sched_decoded (c : Cog) (cond : BitVec 4) (du : DUse) (su : SUse) : (c.decoded cond du su).sched = c.sched := rfl
@[simp] theorem Cog.pipe_decoded (c : Cog) (cond : BitVec 4) (du : DUse) (su : SUse) : (c.decoded cond du su).pipe = c.pipe := rfl
@[simp] theorem Cog.remap_decoded (c : Cog) (cond : BitVec 4) (du : DUse) (su : SUse) : (c.decoded cond du su).remap = c.remap := rfl
@[simp] theorem Cog.lastD_decoded (c : Cog) (cond : BitVec 4) (du : DUse) (su : SUse) : (c.decoded cond du su).lastD = c.lastD := rfl
@[simp] theorem Cog.chain_decoded (c : Cog) (cond : BitVec 4) (du : DUse) (su : SUse) : (c.decoded cond du su).chain = c.chain := rfl
@[simp] theorem Cog.trace_decoded (c : Cog) (cond : BitVec 4) (du : DUse) (su : SUse) : (c.decoded cond du su).trace = c.trace := rfl
@[simp] theorem Cog.math_decoded (c : Cog) (cond : BitVec 4) (du : DUse) (su : SUse) : (c.decoded cond du su).math = c.math := rfl
@[simp] theorem Cog.ctra_decoded (c : Cog) (cond : BitVec 4) (du : DUse) (su : SUse) : (c.decoded cond du su).ctra = c.ctra := rfl
@[simp] theorem Cog.ctrb_decoded (c : Cog) (cond : BitVec 4) (du : DUse) (su : SUse) : (c.decoded cond du su).ctrb = c.ctrb := rfl
@[simp] theorem Cog.dac_decoded (c : Cog) (cond : BitVec 4) (du : DUse) (su : SUse) : (c.decoded cond du su).dac = c.dac := rfl
@[simp] theorem Cog.vid_decoded (c : Cog) (cond : BitVec 4) (du : DUse) (su : SUse) : (c.decoded cond du su).vid = c.vid := rfl
@[simp] theorem Cog.pix_decoded (c : Cog) (cond : BitVec 4) (du : DUse) (su : SUse) : (c.decoded cond du su).pix = c.pix := rfl
@[simp] theorem Cog.mix_decoded (c : Cog) (cond : BitVec 4) (du : DUse) (su : SUse) : (c.decoded cond du su).mix = c.mix := rfl
@[simp] theorem Cog.xfr_decoded (c : Cog) (cond : BitVec 4) (du : DUse) (su : SUse) : (c.decoded cond du su).xfr = c.xfr := rfl
@[simp] theorem Cog.sera_decoded (c : Cog) (cond : BitVec 4) (du : DUse) (su : SUse) : (c.decoded cond du su).sera = c.sera := rfl
@[simp] theorem Cog.serb_decoded (c : Cog) (cond : BitVec 4) (du : DUse) (su : SUse) : (c.decoded cond du su).serb = c.serb := rfl
@[simp] theorem Cog.icache_decoded (c : Cog) (cond : BitVec 4) (du : DUse) (su : SUse) : (c.decoded cond du su).icache = c.icache := rfl
@[simp] theorem Cog.opq_decoded (c : Cog) (cond : BitVec 4) (du : DUse) (su : SUse) : (c.decoded cond du su).opq = c.opq := rfl
@[simp] theorem Cog.rom_decoded (c : Cog) (cond : BitVec 4) (du : DUse) (su : SUse) : (c.decoded cond du su).rom = c.rom := rfl
@[simp] theorem Cog.cur_decoded (c : Cog) (cond : BitVec 4) (du : DUse) (su : SUse) : (c.decoded cond du su).cur = c.cur := rfl
@[simp] theorem Cog.tasks_decoded_ne (c : Cog) (cond : BitVec 4) (du : DUse) (su : SUse) {t : Fin 4} (h : t ≠ c.cur) :
    (c.decoded cond du su).tasks.get t = c.tasks.get t :=
  Quad.get_set_ne _ _ h

@[simp] theorem Cog.task_z_decoded (c : Cog) (cond : BitVec 4) (du : DUse) (su : SUse) :
    (c.decoded cond du su).task.z = c.task.z := by
  simp [Cog.decoded, Cog.task, Cog.cur]
@[simp] theorem Cog.task_c_decoded (c : Cog) (cond : BitVec 4) (du : DUse) (su : SUse) :
    (c.decoded cond du su).task.c = c.task.c := by
  simp [Cog.decoded, Cog.task, Cog.cur]
@[simp] theorem Cog.task_pc_decoded (c : Cog) (cond : BitVec 4) (du : DUse) (su : SUse) :
    (c.decoded cond du su).task.pc = c.task.pc := by
  simp [Cog.decoded, Cog.task, Cog.cur]
@[simp] theorem Cog.task_stack_decoded (c : Cog) (cond : BitVec 4) (du : DUse) (su : SUse) :
    (c.decoded cond du su).task.stack = c.task.stack := by
  simp [Cog.decoded, Cog.task, Cog.cur]
@[simp] theorem Cog.task_rep_decoded (c : Cog) (cond : BitVec 4) (du : DUse) (su : SUse) :
    (c.decoded cond du su).task.rep = c.task.rep := by
  simp [Cog.decoded, Cog.task, Cog.cur]
@[simp] theorem Cog.task_dlyTarget_decoded (c : Cog) (cond : BitVec 4) (du : DUse) (su : SUse) :
    (c.decoded cond du su).task.dlyTarget = c.task.dlyTarget := by
  simp [Cog.decoded, Cog.task, Cog.cur]
@[simp] theorem Cog.task_dlyCount_decoded (c : Cog) (cond : BitVec 4) (du : DUse) (su : SUse) :
    (c.decoded cond du su).task.dlyCount = c.task.dlyCount := by
  simp [Cog.decoded, Cog.task, Cog.cur]

/-! ### Branches -/

@[simp] theorem State.run_redirect (c : Cog) (s : State) (t : Fin 4) (p : Addr) : (s.redirect c t p).run = c.run := rfl
@[simp] theorem State.ram_redirect (c : Cog) (s : State) (t : Fin 4) (p : Addr) : (s.redirect c t p).ram = c.ram := rfl
@[simp] theorem State.aux_redirect (c : Cog) (s : State) (t : Fin 4) (p : Addr) : (s.redirect c t p).aux = c.aux := rfl
@[simp] theorem State.ports_redirect (c : Cog) (s : State) (t : Fin 4) (p : Addr) : (s.redirect c t p).ports = c.ports := rfl
@[simp] theorem State.wide_redirect (c : Cog) (s : State) (t : Fin 4) (p : Addr) : (s.redirect c t p).wide = c.wide := rfl
@[simp] theorem State.ptra_redirect (c : Cog) (s : State) (t : Fin 4) (p : Addr) : (s.redirect c t p).ptra = c.ptra := rfl
@[simp] theorem State.ptrb_redirect (c : Cog) (s : State) (t : Fin 4) (p : Addr) : (s.redirect c t p).ptrb = c.ptrb := rfl
@[simp] theorem State.ptrx_redirect (c : Cog) (s : State) (t : Fin 4) (p : Addr) : (s.redirect c t p).ptrx = c.ptrx := rfl
@[simp] theorem State.ptry_redirect (c : Cog) (s : State) (t : Fin 4) (p : Addr) : (s.redirect c t p).ptry = c.ptry := rfl
@[simp] theorem State.sched_redirect (c : Cog) (s : State) (t : Fin 4) (p : Addr) : (s.redirect c t p).sched = c.sched := rfl
@[simp] theorem State.remap_redirect (c : Cog) (s : State) (t : Fin 4) (p : Addr) : (s.redirect c t p).remap = c.remap := rfl
@[simp] theorem State.lastD_redirect (c : Cog) (s : State) (t : Fin 4) (p : Addr) : (s.redirect c t p).lastD = c.lastD := rfl
@[simp] theorem State.chain_redirect (c : Cog) (s : State) (t : Fin 4) (p : Addr) : (s.redirect c t p).chain = c.chain := rfl
@[simp] theorem State.trace_redirect (c : Cog) (s : State) (t : Fin 4) (p : Addr) : (s.redirect c t p).trace = c.trace := rfl
@[simp] theorem State.math_redirect (c : Cog) (s : State) (t : Fin 4) (p : Addr) : (s.redirect c t p).math = c.math := rfl
@[simp] theorem State.ctra_redirect (c : Cog) (s : State) (t : Fin 4) (p : Addr) : (s.redirect c t p).ctra = c.ctra := rfl
@[simp] theorem State.ctrb_redirect (c : Cog) (s : State) (t : Fin 4) (p : Addr) : (s.redirect c t p).ctrb = c.ctrb := rfl
@[simp] theorem State.dac_redirect (c : Cog) (s : State) (t : Fin 4) (p : Addr) : (s.redirect c t p).dac = c.dac := rfl
@[simp] theorem State.vid_redirect (c : Cog) (s : State) (t : Fin 4) (p : Addr) : (s.redirect c t p).vid = c.vid := rfl
@[simp] theorem State.pix_redirect (c : Cog) (s : State) (t : Fin 4) (p : Addr) : (s.redirect c t p).pix = c.pix := rfl
@[simp] theorem State.mix_redirect (c : Cog) (s : State) (t : Fin 4) (p : Addr) : (s.redirect c t p).mix = c.mix := rfl
@[simp] theorem State.xfr_redirect (c : Cog) (s : State) (t : Fin 4) (p : Addr) : (s.redirect c t p).xfr = c.xfr := rfl
@[simp] theorem State.sera_redirect (c : Cog) (s : State) (t : Fin 4) (p : Addr) : (s.redirect c t p).sera = c.sera := rfl
@[simp] theorem State.serb_redirect (c : Cog) (s : State) (t : Fin 4) (p : Addr) : (s.redirect c t p).serb = c.serb := rfl
@[simp] theorem State.icache_redirect (c : Cog) (s : State) (t : Fin 4) (p : Addr) : (s.redirect c t p).icache = c.icache := rfl
@[simp] theorem State.opq_redirect (c : Cog) (s : State) (t : Fin 4) (p : Addr) : (s.redirect c t p).opq = c.opq := rfl
@[simp] theorem State.rom_redirect (c : Cog) (s : State) (t : Fin 4) (p : Addr) : (s.redirect c t p).rom = c.rom := rfl
@[simp] theorem State.cur_redirect (c : Cog) (s : State) (t : Fin 4) (p : Addr) : (s.redirect c t p).cur = c.cur := rfl

@[simp] theorem Cog.run_delayed (c : Cog) (p : Addr) : (c.delayed p).run = c.run := rfl
@[simp] theorem Cog.ram_delayed (c : Cog) (p : Addr) : (c.delayed p).ram = c.ram := rfl
@[simp] theorem Cog.aux_delayed (c : Cog) (p : Addr) : (c.delayed p).aux = c.aux := rfl
@[simp] theorem Cog.ports_delayed (c : Cog) (p : Addr) : (c.delayed p).ports = c.ports := rfl
@[simp] theorem Cog.wide_delayed (c : Cog) (p : Addr) : (c.delayed p).wide = c.wide := rfl
@[simp] theorem Cog.ptra_delayed (c : Cog) (p : Addr) : (c.delayed p).ptra = c.ptra := rfl
@[simp] theorem Cog.ptrb_delayed (c : Cog) (p : Addr) : (c.delayed p).ptrb = c.ptrb := rfl
@[simp] theorem Cog.ptrx_delayed (c : Cog) (p : Addr) : (c.delayed p).ptrx = c.ptrx := rfl
@[simp] theorem Cog.ptry_delayed (c : Cog) (p : Addr) : (c.delayed p).ptry = c.ptry := rfl
@[simp] theorem Cog.sched_delayed (c : Cog) (p : Addr) : (c.delayed p).sched = c.sched := rfl
@[simp] theorem Cog.remap_delayed (c : Cog) (p : Addr) : (c.delayed p).remap = c.remap := rfl
@[simp] theorem Cog.lastD_delayed (c : Cog) (p : Addr) : (c.delayed p).lastD = c.lastD := rfl
@[simp] theorem Cog.chain_delayed (c : Cog) (p : Addr) : (c.delayed p).chain = c.chain := rfl
@[simp] theorem Cog.trace_delayed (c : Cog) (p : Addr) : (c.delayed p).trace = c.trace := rfl
@[simp] theorem Cog.math_delayed (c : Cog) (p : Addr) : (c.delayed p).math = c.math := rfl
@[simp] theorem Cog.ctra_delayed (c : Cog) (p : Addr) : (c.delayed p).ctra = c.ctra := rfl
@[simp] theorem Cog.ctrb_delayed (c : Cog) (p : Addr) : (c.delayed p).ctrb = c.ctrb := rfl
@[simp] theorem Cog.dac_delayed (c : Cog) (p : Addr) : (c.delayed p).dac = c.dac := rfl
@[simp] theorem Cog.vid_delayed (c : Cog) (p : Addr) : (c.delayed p).vid = c.vid := rfl
@[simp] theorem Cog.pix_delayed (c : Cog) (p : Addr) : (c.delayed p).pix = c.pix := rfl
@[simp] theorem Cog.mix_delayed (c : Cog) (p : Addr) : (c.delayed p).mix = c.mix := rfl
@[simp] theorem Cog.xfr_delayed (c : Cog) (p : Addr) : (c.delayed p).xfr = c.xfr := rfl
@[simp] theorem Cog.sera_delayed (c : Cog) (p : Addr) : (c.delayed p).sera = c.sera := rfl
@[simp] theorem Cog.serb_delayed (c : Cog) (p : Addr) : (c.delayed p).serb = c.serb := rfl
@[simp] theorem Cog.icache_delayed (c : Cog) (p : Addr) : (c.delayed p).icache = c.icache := rfl
@[simp] theorem Cog.opq_delayed (c : Cog) (p : Addr) : (c.delayed p).opq = c.opq := rfl
@[simp] theorem Cog.rom_delayed (c : Cog) (p : Addr) : (c.delayed p).rom = c.rom := rfl
@[simp] theorem Cog.inda_delayed (c : Cog) (p : Addr) : (c.delayed p).inda = c.inda := rfl
@[simp] theorem Cog.indb_delayed (c : Cog) (p : Addr) : (c.delayed p).indb = c.indb := rfl
@[simp] theorem Cog.pipe_delayed (c : Cog) (p : Addr) : (c.delayed p).pipe = c.pipe := rfl
@[simp] theorem Cog.cur_delayed (c : Cog) (p : Addr) : (c.delayed p).cur = c.cur := rfl
@[simp] theorem Cog.tasks_delayed_ne (c : Cog) (p : Addr) {t : Fin 4} (h : t ≠ c.cur) :
    (c.delayed p).tasks.get t = c.tasks.get t :=
  Quad.get_set_ne _ _ h

/-! ### Math unit -/

@[simp] theorem Cog.run_withMath (c : Cog) (m : MathUnit) : (c.withMath m).run = c.run := rfl
@[simp] theorem Cog.ram_withMath (c : Cog) (m : MathUnit) : (c.withMath m).ram = c.ram := rfl
@[simp] theorem Cog.aux_withMath (c : Cog) (m : MathUnit) : (c.withMath m).aux = c.aux := rfl
@[simp] theorem Cog.ports_withMath (c : Cog) (m : MathUnit) : (c.withMath m).ports = c.ports := rfl
@[simp] theorem Cog.inda_withMath (c : Cog) (m : MathUnit) : (c.withMath m).inda = c.inda := rfl
@[simp] theorem Cog.indb_withMath (c : Cog) (m : MathUnit) : (c.withMath m).indb = c.indb := rfl
@[simp] theorem Cog.wide_withMath (c : Cog) (m : MathUnit) : (c.withMath m).wide = c.wide := rfl
@[simp] theorem Cog.ptra_withMath (c : Cog) (m : MathUnit) : (c.withMath m).ptra = c.ptra := rfl
@[simp] theorem Cog.ptrb_withMath (c : Cog) (m : MathUnit) : (c.withMath m).ptrb = c.ptrb := rfl
@[simp] theorem Cog.ptrx_withMath (c : Cog) (m : MathUnit) : (c.withMath m).ptrx = c.ptrx := rfl
@[simp] theorem Cog.ptry_withMath (c : Cog) (m : MathUnit) : (c.withMath m).ptry = c.ptry := rfl
@[simp] theorem Cog.tasks_withMath (c : Cog) (m : MathUnit) : (c.withMath m).tasks = c.tasks := rfl
@[simp] theorem Cog.sched_withMath (c : Cog) (m : MathUnit) : (c.withMath m).sched = c.sched := rfl
@[simp] theorem Cog.pipe_withMath (c : Cog) (m : MathUnit) : (c.withMath m).pipe = c.pipe := rfl
@[simp] theorem Cog.remap_withMath (c : Cog) (m : MathUnit) : (c.withMath m).remap = c.remap := rfl
@[simp] theorem Cog.lastD_withMath (c : Cog) (m : MathUnit) : (c.withMath m).lastD = c.lastD := rfl
@[simp] theorem Cog.chain_withMath (c : Cog) (m : MathUnit) : (c.withMath m).chain = c.chain := rfl
@[simp] theorem Cog.trace_withMath (c : Cog) (m : MathUnit) : (c.withMath m).trace = c.trace := rfl
@[simp] theorem Cog.ctra_withMath (c : Cog) (m : MathUnit) : (c.withMath m).ctra = c.ctra := rfl
@[simp] theorem Cog.ctrb_withMath (c : Cog) (m : MathUnit) : (c.withMath m).ctrb = c.ctrb := rfl
@[simp] theorem Cog.dac_withMath (c : Cog) (m : MathUnit) : (c.withMath m).dac = c.dac := rfl
@[simp] theorem Cog.vid_withMath (c : Cog) (m : MathUnit) : (c.withMath m).vid = c.vid := rfl
@[simp] theorem Cog.pix_withMath (c : Cog) (m : MathUnit) : (c.withMath m).pix = c.pix := rfl
@[simp] theorem Cog.mix_withMath (c : Cog) (m : MathUnit) : (c.withMath m).mix = c.mix := rfl
@[simp] theorem Cog.xfr_withMath (c : Cog) (m : MathUnit) : (c.withMath m).xfr = c.xfr := rfl
@[simp] theorem Cog.sera_withMath (c : Cog) (m : MathUnit) : (c.withMath m).sera = c.sera := rfl
@[simp] theorem Cog.serb_withMath (c : Cog) (m : MathUnit) : (c.withMath m).serb = c.serb := rfl
@[simp] theorem Cog.icache_withMath (c : Cog) (m : MathUnit) : (c.withMath m).icache = c.icache := rfl
@[simp] theorem Cog.opq_withMath (c : Cog) (m : MathUnit) : (c.withMath m).opq = c.opq := rfl
@[simp] theorem Cog.rom_withMath (c : Cog) (m : MathUnit) : (c.withMath m).rom = c.rom := rfl
@[simp] theorem Cog.stage4_withMath (c : Cog) (m : MathUnit) : (c.withMath m).stage4 = c.stage4 := rfl
@[simp] theorem Cog.math_withMath (c : Cog) (m : MathUnit) : (c.withMath m).math = m := rfl
@[simp] theorem Cog.task_withMath (c : Cog) (m : MathUnit) : (c.withMath m).task = c.task := rfl
@[simp] theorem Cog.cur_withMath (c : Cog) (m : MathUnit) : (c.withMath m).cur = c.cur := rfl

/-! ### `Wide.cleared` and the operands of the instruction in stage 4 -/

@[simp] theorem Wide.regs_cleared (w : Wide) : w.cleared.regs = Octet.all 0 := rfl
@[simp] theorem Wide.base_cleared (w : Wide) : w.cleared.base = w.base := rfl
@[simp] theorem Wide.mapped_cleared (w : Wide) : w.cleared.mapped = w.mapped := rfl
@[simp] theorem Wide.tag_cleared (w : Wide) : w.cleared.tag = w.tag := rfl
@[simp] theorem Wide.valid_cleared (w : Wide) : w.cleared.valid = w.valid := rfl
@[simp] theorem Wide.moveLeft_cleared (w : Wide) : w.cleared.moveLeft = w.moveLeft := rfl
@[simp] theorem Wide.oldWindows_cleared (w : Wide) : w.cleared.oldWindows = w.oldWindows := rfl

theorem State.opsNow_of_enters {s : State} (h : s.enters) (cond : BitVec 4) (du : DUse) (su : SUse) :
    s.opsNow cond du su = s.operands cond du su := by simp only [State.opsNow, h]

theorem State.opsNow_of_waiting {s : State} {w : Waiting} (h : s.cog.pipe.waiting = some w) (cond : BitVec 4) (du : DUse)
    (su : SUse) : s.opsNow cond du su = w.ops := by simp only [State.opsNow, h]

theorem State.cogNow_of_enters {s : State} (h : s.enters) (cond : BitVec 4) (du : DUse) (su : SUse) :
    s.cogNow cond du su = (s.opened cond du su).cog := by simp only [State.cogNow, h]

theorem State.cogNow_of_waiting {s : State} {w : Waiting} (h : s.cog.pipe.waiting = some w) (cond : BitVec 4) (du : DUse)
    (su : SUse) : s.cogNow cond du su = s.cog := by simp only [State.cogNow, h]

end Sys2Proof.Machine
end

