-- ==== Sys2Proof/Laws/Ops.lean ====
section
/-!
SUPPORT. What each shared operation can do, said once: later proofs cite these and do not unfold the operations.
-/

set_option Elab.async false

namespace Sys2Proof.Machine

open Sys2Proof

variable {s t : State} {c : Cog} {cond : BitVec 4} {du : DUse} {su : SUse} {body : Operands → State → Out} {o : Operands}
  {go : State → Out} {stall : Nat} {d : RegAddr} {v : Word} {p : Addr}

/-! ### The end of an instruction -/

theorem State.finish_eq (s : State) (c : Cog) (stall : Nat) : s.finish c stall = .next (s.ends c stall) := rfl

theorem State.finishD_eq (h : isWindow d = false) : s.finishD c d v stall = .next (s.ends (c.writeReg d v) stall) := by
  simp [State.finishD, h, State.finish_eq]

theorem State.finishD_window (h : isWindow d = true) : s.finishD c d v stall = .refused .indirectWindow := by
  simp [State.finishD, h]

theorem State.finishD_next (h : s.finishD c d v stall = .next t) :
    isWindow d = false ∧ t = s.ends (c.writeReg d v) stall := by
  cases hw : isWindow d
  · rw [State.finishD_eq hw] at h
    exact ⟨rfl, (Host.Outcome.next.inj h).symm⟩
  · rw [State.finishD_window hw] at h
    cases h

theorem State.putResult_eq {a : Result} {wz wc : Bool} (h : isWindow o.d = false) :
    s.putResult o wz wc a stall = .next (s.wrote o.d a.r wz wc a.z a.c stall) :=
  State.finishD_eq h

theorem State.putFlags_eq (s : State) (wz wc z c : Bool) :
    s.putFlags wz wc z c = .next (s.ends (s.cog.setFlags wz wc z c) 0) := rfl

/-! ### Branches -/

theorem State.branch_eq (h : c.task.dlyCount = 0) :
    s.branch c p stall = .next (s.setCog ((s.redirect c c.cur p).endCycle stall)) := by
  simp [State.branch, h]

theorem State.branch_next (h : s.branch c p stall = .next t) :
    c.task.dlyCount = 0 ∧ t = s.setCog ((s.redirect c c.cur p).endCycle stall) := by
  unfold State.branch at h
  split_ifs at h with hd
  exact ⟨Decidable.not_not.mp hd, (Host.Outcome.next.inj h).symm⟩

theorem State.branchD_eq (h : c.task.dlyCount = 0) :
    s.branchD c p stall = .next (s.setCog ((c.delayed p).endCycle stall)) := by
  simp [State.branchD, h]

theorem State.branchD_next (h : s.branchD c p stall = .next t) :
    c.task.dlyCount = 0 ∧ t = s.setCog ((c.delayed p).endCycle stall) := by
  unfold State.branchD at h
  split_ifs at h with hd
  exact ⟨Decidable.not_not.mp hd, (Host.Outcome.next.inj h).symm⟩

/-- A branch not taken goes on; of the repeater only `active` is in question (U41). -/
theorem State.fallThrough_eq (s : State) (c : Cog) (stall : Nat) :
    ∃ b, s.fallThrough c stall
      = .next (s.ends (c.setTask { c.task with rep := { c.task.rep with active := b } }) stall) := by
  unfold State.fallThrough
  dsimp only
  split_ifs
  · exact ⟨_, rfl⟩
  · exact ⟨c.task.rep.active, by rw [State.finish_eq]; congr; exact (Cog.setTask_task c).symm⟩

/-! ### Answers -/

theorem State.finishD_delivers (s : State) (c : Cog) (d : RegAddr) (v : Word) (stall : Nat) :
    Out.delivers (s.finishD c d v stall) d (s.ends (c.writeReg d v) stall) :=
  ⟨State.finishD_eq, State.finishD_window⟩

theorem State.putResult_delivers (s : State) (o : Operands) (wz wc : Bool) (a : Result) (stall : Nat) :
    Out.delivers (s.putResult o wz wc a stall) o.d (s.wrote o.d a.r wz wc a.z a.c stall) :=
  State.finishD_delivers _ _ _ _ _

theorem State.branch_branches (s : State) (c : Cog) (p : Addr) (stall : Nat) :
    Out.branches (s.branch c p stall) s c p false stall := by
  refine ⟨fun h => ?_, fun h => ?_⟩
  · simp [State.branch_eq h, State.jumped]
  · simp [State.branch, h]

theorem State.take_branches (s : State) (c : Cog) (p : Addr) (delayed : Bool) (stall : Nat) :
    Out.branches (s.take c p delayed stall) s c p delayed stall := by
  cases delayed
  · exact State.branch_branches s c p stall
  · refine ⟨fun h => ?_, fun h => ?_⟩
    · simp only [State.take, State.branchD_eq h, State.jumped, if_true]
    · simp [State.take, State.branchD, h]

theorem State.fallThrough_falls (s : State) (c : Cog) : Out.fallsThrough (s.fallThrough c) s c := by
  unfold State.fallThrough
  dsimp only
  split_ifs with h
  · exact ⟨_, fun hb => absurd (h.symm.trans hb) (by decide), rfl⟩
  · exact ⟨c.task.rep.active, fun _ => rfl, by rw [State.finish_eq]; congr; exact (Cog.setTask_task c).symm⟩

/-! ### Waiting -/

theorem State.hold_eq (s : State) (o : Operands) (pin : Bool) :
    s.hold o pin = .next (s.setCog { s.cog with pipe := { s.cog.pipe with waiting := some ⟨o, pin⟩, waited := s.cog.pipe.waited + 1 } }) :=
  rfl

theorem State.atHub_eq (h : s.ownsHub = true) : s.atHub o go = go s := by
  simp [State.atHub, h]

theorem State.atHub_waits (h : s.ownsHub = false) : s.atHub o go = s.hold o := by
  simp [State.atHub, h]

theorem State.atHub_inHubCycle {acts : Prop} (h : s.ownsHub = true → acts) : Out.inHubCycle (s.atHub o go) s o acts :=
  ⟨h, fun hw => by rw [State.atHub_waits hw]; rfl⟩

theorem State.waitFor_ready : s.waitFor o true go = go s := rfl

/-- What is not ready stalls in single-task mode (R398). -/
theorem State.waitFor_stalls (h : s.cog.multiTask = false) : s.waitFor o false go = s.hold o := by
  simp [State.waitFor, h]

/-- What is not ready jumps to itself in multi-task mode (R398). -/
theorem State.waitFor_loops (h : s.cog.multiTask = true) : s.waitFor o false go = s.branch s.cog s.task.pc := by
  simp [State.waitFor, h]

theorem State.waitFor_whenReady {ready : Bool} {acts : Prop} (h : ready = true → acts) :
    Out.whenReady (s.waitFor o ready go) s o ready acts := by
  refine ⟨h, fun hr hm => ?_, fun hr hm => ?_⟩ <;> subst hr
  · rw [State.waitFor_stalls hm]; rfl
  · rw [State.waitFor_loops hm]; exact State.branch_branches _ _ _ _

/-! ### The shape of a conditional instruction -/

theorem State.withOperands_executes (h : s.executes cond du su) :
    s.withOperands cond du su body = body (s.operands cond du su) (s.opened cond du su) := by
  obtain ⟨hw, he⟩ := h
  simp only [State.withOperands, hw, he, if_true]
  rfl

/-- A skipped instruction passes on; its operands are decoded all the same (R174, R177, D19). -/
theorem State.withOperands_skips (h : s.skips cond du su) :
    s.withOperands cond du su body = .next ((s.opened cond du su).ends (s.opened cond du su).cog 0) := by
  obtain ⟨hw, he⟩ := h
  simp only [State.withOperands, hw, he, Bool.false_eq_true, if_false]
  rfl

theorem State.withOperands_waits {w : Waiting} (h : s.cog.pipe.waiting = some w) :
    s.withOperands cond du su body = body w.ops s := by
  simp only [State.withOperands, h]

/-- Entering or waiting, an instruction in stage 4 does what its meaning says of its operands. -/
theorem State.withOperands_stage4 (h : s.stage4 cond du su o t) : s.withOperands cond du su body = body o t := by
  obtain ⟨hx, rfl, rfl⟩ | ⟨w, hw, rfl, rfl⟩ := h
  · exact State.withOperands_executes hx
  · exact State.withOperands_waits hw

theorem State.conditional_stage4 (h : s.stage4 cond (.raw 0) (.raw 0) o t) : s.conditional cond body = body o t :=
  State.withOperands_stage4 h

theorem State.conditional_executes (h : s.executes cond (.raw 0) (.raw 0)) :
    s.conditional cond body = body (s.operands cond (.raw 0) (.raw 0)) (s.opened cond (.raw 0) (.raw 0)) :=
  State.withOperands_executes h

@[simp] theorem State.cog_opened : (s.opened cond du su).cog = s.cog.decoded cond du su := State.cog_setCog _ _
@[simp] theorem State.hub_opened : (s.opened cond du su).hub = s.hub := rfl
@[simp] theorem State.cur_opened : (s.opened cond du su).cur = s.cur := rfl
@[simp] theorem State.turn_opened : (s.opened cond du su).turn = s.turn := rfl
@[simp] theorem State.ownsHub_opened : (s.opened cond du su).ownsHub = s.ownsHub := rfl
@[simp] theorem State.task_opened_z : (s.opened cond du su).task.z = s.task.z := by simp [State.task_eq]
@[simp] theorem State.task_opened_c : (s.opened cond du su).task.c = s.task.c := by simp [State.task_eq]
@[simp] theorem State.task_opened_pc : (s.opened cond du su).task.pc = s.task.pc := by simp [State.task_eq]
@[simp] theorem State.task_opened_stack : (s.opened cond du su).task.stack = s.task.stack := by simp [State.task_eq]

@[simp] theorem State.cog_ends : (s.ends c stall).cog = c.retire stall := State.cog_setCog _ _
@[simp] theorem State.hub_ends : (s.ends c stall).hub = s.hub := rfl
@[simp] theorem State.cur_ends : (s.ends c stall).cur = s.cur := rfl

theorem State.noAugs_eq {go : Out} (b : Bool) (h : s.task.augs = none) : s.noAugs b go = go := by
  simp [State.noAugs, h]

theorem State.noAugd_eq {go : Out} (b : Bool) (h : s.task.augd = none) : s.noAugd b go = go := by
  simp [State.noAugd, h]

/-! ### The instruction shapes -/

theorem State.dualOp_executes {f : Dual} {alu : AluIn → Result} (h : s.executes f.cond (.reg f.d) (si f.i f.s))
    (hd : isWindow (s.operands f.cond (.reg f.d) (si f.i f.s)).d = false) :
    s.dualOp f alu stall = .next
      (let a := alu ((s.opened f.cond (.reg f.d) (si f.i f.s)).aluIn (s.operands f.cond (.reg f.d) (si f.i f.s)))
       (s.opened f.cond (.reg f.d) (si f.i f.s)).wrote (s.operands f.cond (.reg f.d) (si f.i f.s)).d a.r f.wz f.wc a.z a.c
         stall) := by
  unfold State.dualOp
  rw [State.withOperands_executes h, State.putResult_eq hd]

theorem State.dualTest_executes {f : Dual} {alu : AluIn → Result} (h : s.executes f.cond (.reg f.d) (si f.i f.s)) :
    s.dualTest f alu = .next
      (let a := alu ((s.opened f.cond (.reg f.d) (si f.i f.s)).aluIn (s.operands f.cond (.reg f.d) (si f.i f.s)))
       (s.opened f.cond (.reg f.d) (si f.i f.s)).ends
         ((s.opened f.cond (.reg f.d) (si f.i f.s)).cog.setFlags f.wz f.wc a.z a.c) 0) := by
  unfold State.dualTest
  rw [State.withOperands_executes h]
  rfl

theorem State.dualPOp_executes {f : DualP} {alu : AluIn → Word} (h : s.executes f.cond (.reg f.d) (si f.i f.s))
    (hd : isWindow (s.operands f.cond (.reg f.d) (si f.i f.s)).d = false) :
    s.dualPOp f alu stall = .next
      ((s.opened f.cond (.reg f.d) (si f.i f.s)).ends
        ((s.opened f.cond (.reg f.d) (si f.i f.s)).cog.writeReg (s.operands f.cond (.reg f.d) (si f.i f.s)).d
          (alu ((s.opened f.cond (.reg f.d) (si f.i f.s)).aluIn (s.operands f.cond (.reg f.d) (si f.i f.s))))) stall) := by
  unfold State.dualPOp
  rw [State.withOperands_executes h, State.finishD_eq hd]

theorem State.singleOp_executes {f : SingleZC} {alu : AluIn → Result} (h : s.executes f.cond (.reg f.d) (.raw 0))
    (hd : isWindow (s.operands f.cond (.reg f.d) (.raw 0)).d = false) :
    s.singleOp f alu stall = .next
      (let a := alu ((s.opened f.cond (.reg f.d) (.raw 0)).aluIn (s.operands f.cond (.reg f.d) (.raw 0)))
       (s.opened f.cond (.reg f.d) (.raw 0)).wrote (s.operands f.cond (.reg f.d) (.raw 0)).d a.r f.wz f.wc a.z a.c stall) := by
  unfold State.singleOp
  rw [State.withOperands_executes h, State.putResult_eq hd]

theorem State.configL_executes {f : SingleL} {g : Word → Cog → Cog} (h : s.executes f.cond (dl f.l f.d) (.raw 0)) :
    s.configL f g = .next ((s.opened f.cond (dl f.l f.d) (.raw 0)).ends
      (g (s.operands f.cond (dl f.l f.d) (.raw 0)).dv (s.opened f.cond (dl f.l f.d) (.raw 0)).cog) 0) := by
  unfold State.configL
  rw [State.withOperands_executes h]
  rfl

theorem State.configLS_executes {f : DualL} {g : Word → Word → Cog → Cog}
    (h : s.executes f.cond (dl f.l f.d) (si f.i f.s)) :
    s.configLS f g = .next ((s.opened f.cond (dl f.l f.d) (si f.i f.s)).ends
      (g (s.operands f.cond (dl f.l f.d) (si f.i f.s)).dv (s.operands f.cond (dl f.l f.d) (si f.i f.s)).sv
        (s.opened f.cond (dl f.l f.d) (si f.i f.s)).cog) 0) := by
  unfold State.configLS
  rw [State.withOperands_executes h]
  rfl

theorem State.config0_executes {f : Zero0} {g : Cog → Cog} (h : s.executes f.cond (.raw 0) (.raw 0)) :
    s.config0 f g = .next ((s.opened f.cond (.raw 0) (.raw 0)).ends (g (s.opened f.cond (.raw 0) (.raw 0)).cog) 0) := by
  unfold State.config0
  rw [State.conditional_executes h]
  rfl

/-! ### Registers -/

/-- A register below $1F2 reads as last written. -/
theorem Cog.stored_putPlain_same {a : RegAddr} (h : a.toNat < 0x1F2 ∨ 0x1F8 ≤ a.toNat) : (c.putPlain a v).stored a = v := by
  have ha := a.isLt
  unfold Cog.putPlain Cog.stored
  split_ifs <;> first | omega | simp

/-- A register write leaves every other register alone. -/
theorem Cog.stored_putPlain_ne {a b : RegAddr} (h : b ≠ a) : (c.putPlain a v).stored b = c.stored b := by
  have hn : b.toNat ≠ a.toNat := fun e => h (BitVec.eq_of_toNat_eq e)
  have ha := a.isLt
  have hb := b.isLt
  have two (x y : RegAddr) (hx : x ≠ y) (e : x.toNat / 4 = y.toNat / 4) : (bits x 0 2).toFin ≠ (bits y 0 2).toFin := by
    intro he
    apply hx
    have := congrArg Fin.val he
    simp [bits] at this
    exact BitVec.eq_of_toNat_eq (by omega)
  unfold Cog.putPlain Cog.stored
  split_ifs <;> first
    | rfl
    | omega
    | exact Sparse.read_write_ne _ _ _ hn
    | exact Quad.get_set_ne _ _ (two b a h (by omega))

/-- The same of an instruction's D write (R37). -/
theorem Cog.stored_writeReg_same {a : RegAddr} (h : a.toNat < 0x1F2 ∨ 0x1F8 ≤ a.toNat) : (c.writeReg a v).stored a = v :=
  Cog.stored_putPlain_same h

theorem Cog.stored_writeReg_ne {a b : RegAddr} (h : b ≠ a) : (c.writeReg a v).stored b = c.stored b :=
  Cog.stored_putPlain_ne h

/-- With no reload hazard open a read sees the present WIDE registers (R1003). -/
theorem Wide.seen_settled {w : Wide} (h : ∀ o ∈ w.olds, o.left = 0) (coin : Nat) : w.seen coin = w.regs := by
  have : w.olds.filter (fun o => o.left ≠ 0) = [] := List.filter_eq_nil_iff.mpr fun o m => by simp [h o m]
  rw [Wide.seen, this]
  rfl

/-- With no move hazard open no earlier window is in a read's way (R1004). -/
theorem Wide.before_settled {w : Wide} (h : ∀ o ∈ w.oldWindows, o.left = 0) (a : RegAddr) : w.before a = none :=
  List.find?_eq_none.mpr fun o m => by simp [h o m]

/-- A register read with no hazard open: the WIDE register in the window, else the register under it (R36). -/
theorem State.readReg_settled {a : RegAddr} (ho : ∀ o ∈ c.wide.olds, o.left = 0) (hw : ∀ o ∈ c.wide.oldWindows, o.left = 0)
    (hm : c.wide.moveLeft = 0) :
    s.readReg c a
      = if inWindow c.wide.base c.wide.mapped a then wideOf c.wide.regs c.wide.base a else s.plainReg c a := by
  simp [State.readReg, Wide.seen_settled ho, Wide.before_settled hw, hm]

/-- Between dot clocks VID stays as it is (R880). -/
theorem Vid.tick_no_dot {u : Vid} (h : u.on = true) (aux : Sparse Word) (turn draw : Nat) : u.tick true 0 aux turn draw = u := by
  simp [Vid.tick, h, Vid.run]

/-- What a taken branch does to INDA, INDB and the repeater where no cancelled word acts in stage 2 (R405, R1005). -/
theorem State.redirect_quiet {k : Fin 4} (h : (c.shadow k).any wordActsEarly = false) :
    (s.redirect c k p).inda = c.inda ∧ (s.redirect c k p).indb = c.indb
      ∧ ((s.redirect c k p).tasks.get k).rep = { (c.tasks.get k).rep with active := false } := by
  simp [State.redirect, h]

/-- Every conditional instruction in one equation: it runs on the operands it has now, or passes on (R174, R398). -/
theorem State.withOperands_eq (s : State) (cond : BitVec 4) (du : DUse) (su : SUse) (body : Operands → State → Out) :
    s.withOperands cond du su body
      = if s.cog.pipe.waiting.isSome || forced du su || condHolds cond s.task.z s.task.c
        then body (s.opsNow cond du su) (if s.cog.pipe.waiting.isSome then s else s.opened cond du su)
        else .next (s.passed cond du su) := by
  unfold State.withOperands
  cases h : s.cog.pipe.waiting with
  | none => simp only [State.opsNow_of_enters h]; rfl
  | some w => simp only [State.opsNow_of_waiting h, Option.isSome_some, Bool.true_or, if_true]

end Sys2Proof.Machine
end

