-- ==== Sys2Proof/Laws/PerInstr.lean ====
section
/-!
SUPPORT. Per constructor of `Instr`: the fields it is written with are read back as it.
-/

set_option Elab.async false

namespace Sys2Proof.Laws

open Sys2Proof

/-- The fields an instruction is written with are read as that instruction (R172, R196). -/
def RoundTrip.Statement (i : Instr) : Prop := i.wellFormed = true → (decodeFields i.fields).map Instr.spell = .ok i

/-! ### Parts of fields -/

theorem top_append (a : BitVec 2) (b : BitVec 7) : (a ++ b).toNat / 128 = a.toNat := by
  have := b.isLt
  rw [BitVec.toNat_append, Nat.shiftLeft_eq, Nat.mul_comm, ← Nat.two_pow_add_eq_or_of_lt (by omega)]
  omega

theorem low_append {m n : Nat} (a : BitVec m) (b : BitVec n) : (a ++ b).extractLsb' 0 n = b := by
  refine BitVec.eq_of_getLsbD_eq fun i hi => ?_
  simp [BitVec.getLsbD_append, hi]

theorem high_append {m n : Nat} (a : BitVec m) (b : BitVec n) : (a ++ b).extractLsb' n m = a := by
  refine BitVec.eq_of_getLsbD_eq fun i hi => ?_
  simp [BitVec.getLsbD_append, hi]

theorem join_16 (n : BitVec 16) : n.extractLsb' 9 7 ++ n.extractLsb' 0 9 = n := by
  refine BitVec.eq_of_getLsbD_eq fun i hi => ?_
  simp only [BitVec.getLsbD_append, BitVec.getLsbD_extractLsb']
  interval_cases i <;> simp

theorem join_reps (n : BitVec 16) : n.extractLsb' 12 4 ++ (n.extractLsb' 3 9 ++ n.extractLsb' 0 3) = n := by
  refine BitVec.eq_of_getLsbD_eq fun i hi => ?_
  simp only [BitVec.getLsbD_append, BitVec.getLsbD_extractLsb']
  interval_cases i <;> simp

theorem join_aug (n : BitVec 23) :
    BitVec.ofBool (n.getLsbD 22) ++ (n.extractLsb' 18 4 ++ (n.extractLsb' 9 9 ++ n.extractLsb' 0 9)) = n := by
  refine BitVec.eq_of_getLsbD_eq fun i hi => ?_
  simp only [BitVec.getLsbD_append, BitVec.getLsbD_extractLsb', BitVec.getLsbD_ofBool]
  interval_cases i <;> simp

theorem repd_row (i : BitVec 6) : (0b001#3 ++ i).toNat / 16 = 4 ∨ (0b001#3 ++ i).toNat / 16 = 5
    ∨ (0b001#3 ++ i).toNat / 16 = 6 ∨ (0b001#3 ++ i).toNat / 16 = 7 := by
  have := i.isLt
  have h : (0b001#3 ++ i).toNat = 64 + i.toNat := by
    rw [BitVec.toNat_append, Nat.shiftLeft_eq, Nat.mul_comm, ← Nat.two_pow_add_eq_or_of_lt (by omega)]
    rfl
  omega

theorem single_row (f : Fields) (h : f.op = 0b1111111#7) : decodeFields f = f.single := by
  simp [decodeFields, Fields.row7, h]

/-- REPD's fields, whatever its count. -/
theorem repd_fields (a b c : Bool) (cond : BitVec 4) (d : RegAddr) (i : BitVec 6) :
    decodeFields ⟨0b1111111#7, a, b, c, cond, d, 0b001#3 ++ i⟩ = Fields.repd ⟨0b1111111#7, a, b, c, cond, d, 0b001#3 ++ i⟩ := by
  rw [single_row _ rfl]
  unfold Fields.single
  rcases repd_row i with h | h | h | h <;> simp only [h]

/-- A BIG16 row by its two bits. -/
theorem big_d (mm : BitVec 2) (n : BitVec 16) : (mm ++ n.extractLsb' 9 7).toNat / 128 = mm.toNat := top_append _ _

theorem big_n (mm : BitVec 2) (n : BitVec 16) :
    (mm ++ n.extractLsb' 9 7).extractLsb' 0 7 ++ n.extractLsb' 0 9 = n := by
  rw [low_append, join_16]

theorem big_row (f : Fields) (h : f.op = 0b1111110#7) : decodeFields f = f.big16 := by
  simp [decodeFields, Fields.row7, h]

theorem cases_3 (n : BitVec 3) : n = 0#3 ∨ n = 1#3 ∨ n = 2#3 ∨ n = 3#3 ∨ n = 4#3 ∨ n = 5#3 ∨ n = 6#3 ∨ n = 7#3 := by
  revert n
  decide

theorem cases_2 (n : BitVec 2) : n = 0#2 ∨ n = 1#2 ∨ n = 2#2 ∨ n = 3#2 := by
  revert n
  decide

theorem join_12 (n : BitVec 12) :
    n.extractLsb' 10 2 ++ BitVec.ofBool (n.getLsbD 9) ++ n.extractLsb' 0 9 = n := by
  refine BitVec.eq_of_getLsbD_eq fun i hi => ?_
  simp only [BitVec.getLsbD_append, BitVec.getLsbD_extractLsb', BitVec.getLsbD_ofBool]
  interval_cases i <;> simp

theorem top_12 (n : BitVec 12) : n.extractLsb' 9 3 = n.extractLsb' 10 2 ++ BitVec.ofBool (n.getLsbD 9) := by
  refine BitVec.eq_of_getLsbD_eq fun i hi => ?_
  simp only [BitVec.getLsbD_append, BitVec.getLsbD_extractLsb', BitVec.getLsbD_ofBool]
  interval_cases i <;> simp

theorem single00_row (f : Fields) (h : f.op = 0b1111111#7) (c : RegAddr) (hs : f.s = c) (hc : c.toNat / 16 = 0) :
    decodeFields f = f.single00 := by
  rw [single_row f h]
  simp only [Fields.single, hs, hc]

theorem single01_row (f : Fields) (h : f.op = 0b1111111#7) (c : RegAddr) (hs : f.s = c) (hc : c.toNat / 16 = 1) :
    decodeFields f = f.single01 := by
  rw [single_row f h]
  simp only [Fields.single, hs, hc]

theorem single02_row (f : Fields) (h : f.op = 0b1111111#7) (c : RegAddr) (hs : f.s = c) (hc : c.toNat / 16 = 2) :
    decodeFields f = f.single02 := by
  rw [single_row f h]
  simp only [Fields.single, hs, hc]

theorem single03_row (f : Fields) (h : f.op = 0b1111111#7) (c : RegAddr) (hs : f.s = c) (hc : c.toNat / 16 = 3) :
    decodeFields f = f.single03 := by
  rw [single_row f h]
  simp only [Fields.single, hs, hc]

theorem single08_row (f : Fields) (h : f.op = 0b1111111#7) (c : RegAddr) (hs : f.s = c) (hc : c.toNat / 16 = 8) :
    decodeFields f = f.single08 := by
  rw [single_row f h]
  simp only [Fields.single, hs, hc]

theorem single09_row (f : Fields) (h : f.op = 0b1111111#7) (c : RegAddr) (hs : f.s = c) (hc : c.toNat / 16 = 9) :
    decodeFields f = f.single09 := by
  rw [single_row f h]
  simp only [Fields.single, hs, hc]

theorem single10_row (f : Fields) (h : f.op = 0b1111111#7) (c : RegAddr) (hs : f.s = c) (hc : c.toNat / 16 = 10) :
    decodeFields f = f.single10 := by
  rw [single_row f h]
  simp only [Fields.single, hs, hc]

theorem single11_row (f : Fields) (h : f.op = 0b1111111#7) (c : RegAddr) (hs : f.s = c) (hc : c.toNat / 16 = 11) :
    decodeFields f = f.single11 := by
  rw [single_row f h]
  simp only [Fields.single, hs, hc]

theorem single12_row (f : Fields) (h : f.op = 0b1111111#7) (c : RegAddr) (hs : f.s = c) (hc : c.toNat / 16 = 12) :
    decodeFields f = f.single12 := by
  rw [single_row f h]
  simp only [Fields.single, hs, hc]

theorem single13_row (f : Fields) (h : f.op = 0b1111111#7) (c : RegAddr) (hs : f.s = c) (hc : c.toNat / 16 = 13) :
    decodeFields f = f.single13 := by
  rw [single_row f h]
  simp only [Fields.single, hs, hc]

theorem single15_row (f : Fields) (h : f.op = 0b1111111#7) (c : RegAddr) (hs : f.s = c) (hc : c.toNat / 16 = 15) :
    decodeFields f = f.single15 := by
  rw [single_row f h]
  simp only [Fields.single, hs, hc]

theorem single16_row (f : Fields) (h : f.op = 0b1111111#7) (c : RegAddr) (hs : f.s = c) (hc : c.toNat / 16 = 16) :
    decodeFields f = f.single16 := by
  rw [single_row f h]
  simp only [Fields.single, hs, hc]

theorem single17_row (f : Fields) (h : f.op = 0b1111111#7) (c : RegAddr) (hs : f.s = c) (hc : c.toNat / 16 = 17) :
    decodeFields f = f.single17 := by
  rw [single_row f h]
  simp only [Fields.single, hs, hc]

/-! ### Per constructor -/

theorem RoundTrip.rdbyte (f : Dual) : RoundTrip.Statement (.rdbyte f) := by
  intro h
  have h : ¬ f = ⟨false, false, false, 0, 0, 0⟩ := by simpa only [Instr.wellFormed, Bool.not_eq_true', beq_eq_false_iff_ne] using h
  refine Eq.trans (b := Except.ok (Instr.spell (.rdbyte f))) (by with_unfolding_all rfl) ?_
  simp only [Instr.spell, if_neg h]
theorem RoundTrip.rdbytec (f : Dual) : RoundTrip.Statement (.rdbytec f) := fun _ => by with_unfolding_all rfl
theorem RoundTrip.rdword (f : Dual) : RoundTrip.Statement (.rdword f) := fun _ => by with_unfolding_all rfl
theorem RoundTrip.rdwordc (f : Dual) : RoundTrip.Statement (.rdwordc f) := fun _ => by with_unfolding_all rfl
theorem RoundTrip.rdlong (f : Dual) : RoundTrip.Statement (.rdlong f) := by
  intro h
  simp only [Instr.wellFormed, isPopHub, Bool.not_eq_true', Bool.and_eq_false_iff, Bool.or_eq_false_iff] at h
  refine Eq.trans (b := Except.ok (Instr.spell (.rdlong f))) (by with_unfolding_all rfl) ?_
  rcases h with h | h <;> simp [Instr.spell, h]
theorem RoundTrip.rdlongc (f : Dual) : RoundTrip.Statement (.rdlongc f) := fun _ => by with_unfolding_all rfl
theorem RoundTrip.rdaux (f : Dual) : RoundTrip.Statement (.rdaux f) := by
  intro h
  simp only [Instr.wellFormed, Bool.not_eq_true', Bool.and_eq_false_iff] at h
  refine Eq.trans (b := Except.ok (Instr.spell (.rdaux f))) (by with_unfolding_all rfl) ?_
  rcases h with h | h <;> simp [Instr.spell, h]
theorem RoundTrip.rdauxr (f : Dual) : RoundTrip.Statement (.rdauxr f) := by
  intro h
  simp only [Instr.wellFormed, Bool.not_eq_true', Bool.and_eq_false_iff] at h
  refine Eq.trans (b := Except.ok (Instr.spell (.rdauxr f))) (by with_unfolding_all rfl) ?_
  rcases h with h | h <;> simp [Instr.spell, h]
theorem RoundTrip.isob (f : Dual) : RoundTrip.Statement (.isob f) := fun _ => by with_unfolding_all rfl
theorem RoundTrip.notb (f : Dual) : RoundTrip.Statement (.notb f) := fun _ => by with_unfolding_all rfl
theorem RoundTrip.clrb (f : Dual) : RoundTrip.Statement (.clrb f) := fun _ => by with_unfolding_all rfl
theorem RoundTrip.setb (f : Dual) : RoundTrip.Statement (.setb f) := fun _ => by with_unfolding_all rfl
theorem RoundTrip.setbc (f : Dual) : RoundTrip.Statement (.setbc f) := fun _ => by with_unfolding_all rfl
theorem RoundTrip.setbnc (f : Dual) : RoundTrip.Statement (.setbnc f) := fun _ => by with_unfolding_all rfl
theorem RoundTrip.setbz (f : Dual) : RoundTrip.Statement (.setbz f) := fun _ => by with_unfolding_all rfl
theorem RoundTrip.setbnz (f : Dual) : RoundTrip.Statement (.setbnz f) := fun _ => by with_unfolding_all rfl
theorem RoundTrip.andn (f : Dual) : RoundTrip.Statement (.andn f) := fun _ => by with_unfolding_all rfl
theorem RoundTrip.and (f : Dual) : RoundTrip.Statement (.and f) := fun _ => by with_unfolding_all rfl
theorem RoundTrip.or (f : Dual) : RoundTrip.Statement (.or f) := fun _ => by with_unfolding_all rfl
theorem RoundTrip.xor (f : Dual) : RoundTrip.Statement (.xor f) := fun _ => by with_unfolding_all rfl
theorem RoundTrip.muxc (f : Dual) : RoundTrip.Statement (.muxc f) := fun _ => by with_unfolding_all rfl
theorem RoundTrip.muxnc (f : Dual) : RoundTrip.Statement (.muxnc f) := fun _ => by with_unfolding_all rfl
theorem RoundTrip.muxz (f : Dual) : RoundTrip.Statement (.muxz f) := fun _ => by with_unfolding_all rfl
theorem RoundTrip.muxnz (f : Dual) : RoundTrip.Statement (.muxnz f) := fun _ => by with_unfolding_all rfl
theorem RoundTrip.ror (f : Dual) : RoundTrip.Statement (.ror f) := fun _ => by with_unfolding_all rfl
theorem RoundTrip.rol (f : Dual) : RoundTrip.Statement (.rol f) := fun _ => by with_unfolding_all rfl
theorem RoundTrip.shr (f : Dual) : RoundTrip.Statement (.shr f) := fun _ => by with_unfolding_all rfl
theorem RoundTrip.shl (f : Dual) : RoundTrip.Statement (.shl f) := fun _ => by with_unfolding_all rfl
theorem RoundTrip.rcr (f : Dual) : RoundTrip.Statement (.rcr f) := fun _ => by with_unfolding_all rfl
theorem RoundTrip.rcl (f : Dual) : RoundTrip.Statement (.rcl f) := fun _ => by with_unfolding_all rfl
theorem RoundTrip.sar (f : Dual) : RoundTrip.Statement (.sar f) := fun _ => by with_unfolding_all rfl
theorem RoundTrip.rev (f : Dual) : RoundTrip.Statement (.rev f) := fun _ => by with_unfolding_all rfl
theorem RoundTrip.mov (f : Dual) : RoundTrip.Statement (.mov f) := fun _ => by with_unfolding_all rfl
theorem RoundTrip.not (f : Dual) : RoundTrip.Statement (.not f) := fun _ => by with_unfolding_all rfl
theorem RoundTrip.abs (f : Dual) : RoundTrip.Statement (.abs f) := fun _ => by with_unfolding_all rfl
theorem RoundTrip.neg (f : Dual) : RoundTrip.Statement (.neg f) := fun _ => by with_unfolding_all rfl
theorem RoundTrip.negc (f : Dual) : RoundTrip.Statement (.negc f) := fun _ => by with_unfolding_all rfl
theorem RoundTrip.negnc (f : Dual) : RoundTrip.Statement (.negnc f) := fun _ => by with_unfolding_all rfl
theorem RoundTrip.negz (f : Dual) : RoundTrip.Statement (.negz f) := fun _ => by with_unfolding_all rfl
theorem RoundTrip.negnz (f : Dual) : RoundTrip.Statement (.negnz f) := fun _ => by with_unfolding_all rfl
theorem RoundTrip.add (f : Dual) : RoundTrip.Statement (.add f) := fun _ => by with_unfolding_all rfl
theorem RoundTrip.sub (f : Dual) : RoundTrip.Statement (.sub f) := fun _ => by with_unfolding_all rfl
theorem RoundTrip.addx (f : Dual) : RoundTrip.Statement (.addx f) := fun _ => by with_unfolding_all rfl
theorem RoundTrip.subx (f : Dual) : RoundTrip.Statement (.subx f) := fun _ => by with_unfolding_all rfl
theorem RoundTrip.adds (f : Dual) : RoundTrip.Statement (.adds f) := fun _ => by with_unfolding_all rfl
theorem RoundTrip.subs (f : Dual) : RoundTrip.Statement (.subs f) := fun _ => by with_unfolding_all rfl
theorem RoundTrip.addsx (f : Dual) : RoundTrip.Statement (.addsx f) := fun _ => by with_unfolding_all rfl
theorem RoundTrip.subsx (f : Dual) : RoundTrip.Statement (.subsx f) := fun _ => by with_unfolding_all rfl
theorem RoundTrip.sumc (f : Dual) : RoundTrip.Statement (.sumc f) := fun _ => by with_unfolding_all rfl
theorem RoundTrip.sumnc (f : Dual) : RoundTrip.Statement (.sumnc f) := fun _ => by with_unfolding_all rfl
theorem RoundTrip.sumz (f : Dual) : RoundTrip.Statement (.sumz f) := fun _ => by with_unfolding_all rfl
theorem RoundTrip.sumnz (f : Dual) : RoundTrip.Statement (.sumnz f) := fun _ => by with_unfolding_all rfl
theorem RoundTrip.min (f : Dual) : RoundTrip.Statement (.min f) := fun _ => by with_unfolding_all rfl
theorem RoundTrip.max (f : Dual) : RoundTrip.Statement (.max f) := fun _ => by with_unfolding_all rfl
theorem RoundTrip.mins (f : Dual) : RoundTrip.Statement (.mins f) := fun _ => by with_unfolding_all rfl
theorem RoundTrip.maxs (f : Dual) : RoundTrip.Statement (.maxs f) := fun _ => by with_unfolding_all rfl
theorem RoundTrip.addabs (f : Dual) : RoundTrip.Statement (.addabs f) := fun _ => by with_unfolding_all rfl
theorem RoundTrip.subabs (f : Dual) : RoundTrip.Statement (.subabs f) := fun _ => by with_unfolding_all rfl
theorem RoundTrip.incmod (f : Dual) : RoundTrip.Statement (.incmod f) := fun _ => by with_unfolding_all rfl
theorem RoundTrip.decmod (f : Dual) : RoundTrip.Statement (.decmod f) := fun _ => by with_unfolding_all rfl
theorem RoundTrip.cmpsub (f : Dual) : RoundTrip.Statement (.cmpsub f) := fun _ => by with_unfolding_all rfl
theorem RoundTrip.subr (f : Dual) : RoundTrip.Statement (.subr f) := fun _ => by with_unfolding_all rfl
theorem RoundTrip.mul (f : Dual) : RoundTrip.Statement (.mul f) := fun _ => by with_unfolding_all rfl
theorem RoundTrip.scl (f : Dual) : RoundTrip.Statement (.scl f) := fun _ => by with_unfolding_all rfl
theorem RoundTrip.decod2 (f : Dual) : RoundTrip.Statement (.decod2 f) := fun _ => by with_unfolding_all rfl
theorem RoundTrip.decod3 (f : Dual) : RoundTrip.Statement (.decod3 f) := fun _ => by with_unfolding_all rfl
theorem RoundTrip.decod4 (f : Dual) : RoundTrip.Statement (.decod4 f) := fun _ => by with_unfolding_all rfl
theorem RoundTrip.decod5 (f : Dual) : RoundTrip.Statement (.decod5 f) := fun _ => by with_unfolding_all rfl
theorem RoundTrip.encod (f : DualZ) : RoundTrip.Statement (.encod f) := fun _ => by with_unfolding_all rfl
theorem RoundTrip.blmask (f : DualZ) : RoundTrip.Statement (.blmask f) := fun _ => by with_unfolding_all rfl
theorem RoundTrip.onecnt (f : DualZ) : RoundTrip.Statement (.onecnt f) := fun _ => by with_unfolding_all rfl
theorem RoundTrip.zercnt (f : DualZ) : RoundTrip.Statement (.zercnt f) := fun _ => by with_unfolding_all rfl
theorem RoundTrip.incpat (f : DualC) : RoundTrip.Statement (.incpat f) := fun _ => by with_unfolding_all rfl
theorem RoundTrip.decpat (f : DualC) : RoundTrip.Statement (.decpat f) := fun _ => by with_unfolding_all rfl
theorem RoundTrip.splitb (f : DualP) : RoundTrip.Statement (.splitb f) := fun _ => by with_unfolding_all rfl
theorem RoundTrip.mergeb (f : DualP) : RoundTrip.Statement (.mergeb f) := fun _ => by with_unfolding_all rfl
theorem RoundTrip.splitw (f : DualP) : RoundTrip.Statement (.splitw f) := fun _ => by with_unfolding_all rfl
theorem RoundTrip.mergew (f : DualP) : RoundTrip.Statement (.mergew f) := fun _ => by with_unfolding_all rfl
theorem RoundTrip.getnib (n : BitVec 3) (f : DualP) : RoundTrip.Statement (.getnib n f) := by
  intro _
  rcases cases_3 n with rfl | rfl | rfl | rfl | rfl | rfl | rfl | rfl
  all_goals show (decodeFields ⟨0b10010#5 ++ BitVec.extractLsb' 1 2 _, BitVec.getLsbD _ 0, false, f.i, f.cond, f.d, f.s⟩).map Instr.spell = _
  all_goals first
    | with_unfolding_all rfl
theorem RoundTrip.setnib (n : BitVec 3) (f : DualP) : RoundTrip.Statement (.setnib n f) := by
  intro _
  rcases cases_3 n with rfl | rfl | rfl | rfl | rfl | rfl | rfl | rfl
  all_goals show (decodeFields ⟨0b10010#5 ++ BitVec.extractLsb' 1 2 _, BitVec.getLsbD _ 0, true, f.i, f.cond, f.d, f.s⟩).map Instr.spell = _
  all_goals first
    | with_unfolding_all rfl
theorem RoundTrip.getword (n : BitVec 1) (f : DualP) : RoundTrip.Statement (.getword n f) := by
  intro _
  obtain ⟨⟨n, hn⟩⟩ := n
  interval_cases n <;> with_unfolding_all rfl
theorem RoundTrip.setword (n : BitVec 1) (f : DualP) : RoundTrip.Statement (.setword n f) := by
  intro _
  obtain ⟨⟨n, hn⟩⟩ := n
  interval_cases n <;> with_unfolding_all rfl
theorem RoundTrip.setwrds (f : DualP) : RoundTrip.Statement (.setwrds f) := fun _ => by with_unfolding_all rfl
theorem RoundTrip.rolnib (f : DualP) : RoundTrip.Statement (.rolnib f) := fun _ => by with_unfolding_all rfl
theorem RoundTrip.rolbyte (f : DualP) : RoundTrip.Statement (.rolbyte f) := fun _ => by with_unfolding_all rfl
theorem RoundTrip.rolword (f : DualP) : RoundTrip.Statement (.rolword f) := fun _ => by with_unfolding_all rfl
theorem RoundTrip.sets (f : DualP) : RoundTrip.Statement (.sets f) := fun _ => by with_unfolding_all rfl
theorem RoundTrip.setd (f : DualP) : RoundTrip.Statement (.setd f) := fun _ => by with_unfolding_all rfl
theorem RoundTrip.setx (f : DualP) : RoundTrip.Statement (.setx f) := fun _ => by with_unfolding_all rfl
theorem RoundTrip.seti (f : DualP) : RoundTrip.Statement (.seti f) := fun _ => by with_unfolding_all rfl
theorem RoundTrip.cognew (f : DualC) : RoundTrip.Statement (.cognew f) := by
  obtain ⟨wc, i, cond, d, s⟩ := f
  intro _
  cases wc <;> with_unfolding_all rfl
theorem RoundTrip.waitcnt (f : DualP) : RoundTrip.Statement (.waitcnt f) := fun _ => by with_unfolding_all rfl
theorem RoundTrip.waitcntWc (f : DualP) : RoundTrip.Statement (.waitcntWc f) := fun _ => by with_unfolding_all rfl
theorem RoundTrip.getbyte (n : BitVec 2) (f : DualP) : RoundTrip.Statement (.getbyte n f) := by
  intro _
  rcases cases_2 n with rfl | rfl | rfl | rfl
  all_goals show (decodeFields ⟨0b101000#6 ++ BitVec.extractLsb' 1 1 _, BitVec.getLsbD _ 0, false, f.i, f.cond, f.d, f.s⟩).map Instr.spell = _
  all_goals first
    | with_unfolding_all rfl
theorem RoundTrip.setbyte (n : BitVec 2) (f : DualP) : RoundTrip.Statement (.setbyte n f) := by
  intro _
  rcases cases_2 n with rfl | rfl | rfl | rfl
  all_goals show (decodeFields ⟨0b101000#6 ++ BitVec.extractLsb' 1 1 _, BitVec.getLsbD _ 0, true, f.i, f.cond, f.d, f.s⟩).map Instr.spell = _
  all_goals first
    | with_unfolding_all rfl
theorem RoundTrip.setbyts (f : DualP) : RoundTrip.Statement (.setbyts f) := fun _ => by with_unfolding_all rfl
theorem RoundTrip.movbyts (f : DualP) : RoundTrip.Statement (.movbyts f) := fun _ => by with_unfolding_all rfl
theorem RoundTrip.packrgb (f : DualP) : RoundTrip.Statement (.packrgb f) := fun _ => by with_unfolding_all rfl
theorem RoundTrip.unpkrgb (f : DualP) : RoundTrip.Statement (.unpkrgb f) := fun _ => by with_unfolding_all rfl
theorem RoundTrip.addpix (f : DualP) : RoundTrip.Statement (.addpix f) := fun _ => by with_unfolding_all rfl
theorem RoundTrip.mulpix (f : DualP) : RoundTrip.Statement (.mulpix f) := fun _ => by with_unfolding_all rfl
theorem RoundTrip.blnpix (f : DualP) : RoundTrip.Statement (.blnpix f) := fun _ => by with_unfolding_all rfl
theorem RoundTrip.mixpix (f : DualP) : RoundTrip.Statement (.mixpix f) := fun _ => by with_unfolding_all rfl
theorem RoundTrip.jmpsw (f : Dual) : RoundTrip.Statement (.jmpsw f) := by
  intro h
  have h : ¬ f = ⟨true, true, false, 0x3, 0x1F3, 0x1F3⟩ := by simpa only [Instr.wellFormed, Bool.not_eq_true', beq_eq_false_iff_ne] using h
  refine Eq.trans (b := Except.ok (Instr.spell (.jmpsw f))) (by with_unfolding_all rfl) ?_
  simp only [Instr.spell, if_neg h]
theorem RoundTrip.jmpswd (f : Dual) : RoundTrip.Statement (.jmpswd f) := by
  intro h
  have h : ¬ f = ⟨true, true, false, 0x3, 0x1F3, 0x1F3⟩ := by simpa only [Instr.wellFormed, Bool.not_eq_true', beq_eq_false_iff_ne] using h
  refine Eq.trans (b := Except.ok (Instr.spell (.jmpswd f))) (by with_unfolding_all rfl) ?_
  simp only [Instr.spell, if_neg h]
theorem RoundTrip.ijz (f : DualP) : RoundTrip.Statement (.ijz f) := fun _ => by with_unfolding_all rfl
theorem RoundTrip.ijzd (f : DualP) : RoundTrip.Statement (.ijzd f) := fun _ => by with_unfolding_all rfl
theorem RoundTrip.ijnz (f : DualP) : RoundTrip.Statement (.ijnz f) := fun _ => by with_unfolding_all rfl
theorem RoundTrip.ijnzd (f : DualP) : RoundTrip.Statement (.ijnzd f) := fun _ => by with_unfolding_all rfl
theorem RoundTrip.djz (f : DualP) : RoundTrip.Statement (.djz f) := fun _ => by with_unfolding_all rfl
theorem RoundTrip.djzd (f : DualP) : RoundTrip.Statement (.djzd f) := fun _ => by with_unfolding_all rfl
theorem RoundTrip.djnz (f : DualP) : RoundTrip.Statement (.djnz f) := fun _ => by with_unfolding_all rfl
theorem RoundTrip.djnzd (f : DualP) : RoundTrip.Statement (.djnzd f) := fun _ => by with_unfolding_all rfl
theorem RoundTrip.testb (f : Dual) : RoundTrip.Statement (.testb f) := fun _ => by with_unfolding_all rfl
theorem RoundTrip.testn (f : Dual) : RoundTrip.Statement (.testn f) := fun _ => by with_unfolding_all rfl
theorem RoundTrip.test (f : Dual) : RoundTrip.Statement (.test f) := fun _ => by with_unfolding_all rfl
theorem RoundTrip.cmp (f : Dual) : RoundTrip.Statement (.cmp f) := fun _ => by with_unfolding_all rfl
theorem RoundTrip.cmpx (f : Dual) : RoundTrip.Statement (.cmpx f) := fun _ => by with_unfolding_all rfl
theorem RoundTrip.cmps (f : Dual) : RoundTrip.Statement (.cmps f) := fun _ => by with_unfolding_all rfl
theorem RoundTrip.cmpsx (f : Dual) : RoundTrip.Statement (.cmpsx f) := fun _ => by with_unfolding_all rfl
theorem RoundTrip.cmpr (f : Dual) : RoundTrip.Statement (.cmpr f) := fun _ => by with_unfolding_all rfl
theorem RoundTrip.coginit (n : BitVec 3) (f : DualP) : RoundTrip.Statement (.coginit n f) := by
  intro _
  rcases cases_3 n with rfl | rfl | rfl | rfl | rfl | rfl | rfl | rfl
  all_goals show (decodeFields ⟨0b11000#5 ++ BitVec.extractLsb' 1 2 _, BitVec.getLsbD _ 0, false, f.i, f.cond, f.d, f.s⟩).map Instr.spell = _
  all_goals first
    | with_unfolding_all rfl
theorem RoundTrip.waitvidImm (n : BitVec 12) (f : DualS) : RoundTrip.Statement (.waitvidImm n f) := by
  intro h
  have j := join_12 n
  simp only [Instr.wellFormed, top_12] at h
  show (decodeFields ⟨0b11000#5 ++ n.extractLsb' 10 2, n.getLsbD 9, true, f.i, f.cond, n.extractLsb' 0 9, f.s⟩).map Instr.spell = _
  generalize n.getLsbD 9 = b at h j ⊢
  generalize n.extractLsb' 10 2 = a at h j ⊢
  rcases cases_2 a with rfl | rfl | rfl | rfl <;> cases b
  all_goals first
    | exact absurd h (by decide)
    | (simp only [decodeFields, Fields.row6, Bool.false_eq_true, if_true, if_false]
       exact congrArg (fun n => Except.ok (Instr.waitvidImm n f)) j)
theorem RoundTrip.waitvid (f : DualP) : RoundTrip.Statement (.waitvid f) := fun _ => by with_unfolding_all rfl
theorem RoundTrip.waitpeq (n : BitVec 2) (f : DualC) : RoundTrip.Statement (.waitpeq n f) := by
  intro _
  rcases cases_2 n with rfl | rfl | rfl | rfl
  all_goals show (decodeFields ⟨0b110010#6 ++ BitVec.extractLsb' 1 1 _, BitVec.getLsbD _ 0, f.wc, f.i, f.cond, f.d, f.s⟩).map Instr.spell = _
  all_goals first
    | with_unfolding_all rfl
theorem RoundTrip.waitpne (n : BitVec 2) (f : DualC) : RoundTrip.Statement (.waitpne n f) := by
  intro _
  rcases cases_2 n with rfl | rfl | rfl | rfl
  all_goals show (decodeFields ⟨0b110011#6 ++ BitVec.extractLsb' 1 1 _, BitVec.getLsbD _ 0, f.wc, f.i, f.cond, f.d, f.s⟩).map Instr.spell = _
  all_goals first
    | with_unfolding_all rfl
theorem RoundTrip.wrbyte (f : DualL) : RoundTrip.Statement (.wrbyte f) := fun _ => by with_unfolding_all rfl
theorem RoundTrip.wrword (f : DualL) : RoundTrip.Statement (.wrword f) := fun _ => by with_unfolding_all rfl
theorem RoundTrip.wrlong (f : DualL) : RoundTrip.Statement (.wrlong f) := by
  intro h
  simp only [Instr.wellFormed, isPushHub, Bool.not_eq_true', Bool.and_eq_false_iff, Bool.or_eq_false_iff] at h
  refine Eq.trans (b := Except.ok (Instr.spell (.wrlong f))) (by with_unfolding_all rfl) ?_
  rcases h with h | h <;> simp [Instr.spell, h]
theorem RoundTrip.frac (f : DualL) : RoundTrip.Statement (.frac f) := fun _ => by with_unfolding_all rfl
theorem RoundTrip.wraux (f : DualL) : RoundTrip.Statement (.wraux f) := by
  intro h
  simp only [Instr.wellFormed, Bool.not_eq_true', Bool.and_eq_false_iff] at h
  refine Eq.trans (b := Except.ok (Instr.spell (.wraux f))) (by with_unfolding_all rfl) ?_
  rcases h with h | h <;> simp [Instr.spell, h]
theorem RoundTrip.wrauxr (f : DualL) : RoundTrip.Statement (.wrauxr f) := by
  intro h
  simp only [Instr.wellFormed, Bool.not_eq_true', Bool.and_eq_false_iff] at h
  refine Eq.trans (b := Except.ok (Instr.spell (.wrauxr f))) (by with_unfolding_all rfl) ?_
  rcases h with h | h <;> simp [Instr.spell, h]
theorem RoundTrip.setacca (f : DualL) : RoundTrip.Statement (.setacca f) := fun _ => by with_unfolding_all rfl
theorem RoundTrip.setaccb (f : DualL) : RoundTrip.Statement (.setaccb f) := fun _ => by with_unfolding_all rfl
theorem RoundTrip.maca (f : DualL) : RoundTrip.Statement (.maca f) := fun _ => by with_unfolding_all rfl
theorem RoundTrip.macb (f : DualL) : RoundTrip.Statement (.macb f) := fun _ => by with_unfolding_all rfl
theorem RoundTrip.mul32 (f : DualL) : RoundTrip.Statement (.mul32 f) := fun _ => by with_unfolding_all rfl
theorem RoundTrip.mul32u (f : DualL) : RoundTrip.Statement (.mul32u f) := fun _ => by with_unfolding_all rfl
theorem RoundTrip.div32 (f : DualL) : RoundTrip.Statement (.div32 f) := fun _ => by with_unfolding_all rfl
theorem RoundTrip.div32u (f : DualL) : RoundTrip.Statement (.div32u f) := fun _ => by with_unfolding_all rfl
theorem RoundTrip.div64 (f : DualL) : RoundTrip.Statement (.div64 f) := fun _ => by with_unfolding_all rfl
theorem RoundTrip.div64u (f : DualL) : RoundTrip.Statement (.div64u f) := fun _ => by with_unfolding_all rfl
theorem RoundTrip.sqrt64 (f : DualL) : RoundTrip.Statement (.sqrt64 f) := fun _ => by with_unfolding_all rfl
theorem RoundTrip.qsincos (f : DualL) : RoundTrip.Statement (.qsincos f) := fun _ => by with_unfolding_all rfl
theorem RoundTrip.qarctan (f : DualL) : RoundTrip.Statement (.qarctan f) := fun _ => by with_unfolding_all rfl
theorem RoundTrip.qrotate (f : DualL) : RoundTrip.Statement (.qrotate f) := fun _ => by with_unfolding_all rfl
theorem RoundTrip.setsera (f : DualL) : RoundTrip.Statement (.setsera f) := fun _ => by with_unfolding_all rfl
theorem RoundTrip.setserb (f : DualL) : RoundTrip.Statement (.setserb f) := fun _ => by with_unfolding_all rfl
theorem RoundTrip.setctrs (f : DualL) : RoundTrip.Statement (.setctrs f) := fun _ => by with_unfolding_all rfl
theorem RoundTrip.setwavs (f : DualL) : RoundTrip.Statement (.setwavs f) := fun _ => by with_unfolding_all rfl
theorem RoundTrip.setfrqs (f : DualL) : RoundTrip.Statement (.setfrqs f) := fun _ => by with_unfolding_all rfl
theorem RoundTrip.setphss (f : DualL) : RoundTrip.Statement (.setphss f) := fun _ => by with_unfolding_all rfl
theorem RoundTrip.addphss (f : DualL) : RoundTrip.Statement (.addphss f) := fun _ => by with_unfolding_all rfl
theorem RoundTrip.subphss (f : DualL) : RoundTrip.Statement (.subphss f) := fun _ => by with_unfolding_all rfl
theorem RoundTrip.jp (f : DualL) : RoundTrip.Statement (.jp f) := fun _ => by with_unfolding_all rfl
theorem RoundTrip.jpd (f : DualL) : RoundTrip.Statement (.jpd f) := fun _ => by with_unfolding_all rfl
theorem RoundTrip.jnp (f : DualL) : RoundTrip.Statement (.jnp f) := fun _ => by with_unfolding_all rfl
theorem RoundTrip.jnpd (f : DualL) : RoundTrip.Statement (.jnpd f) := fun _ => by with_unfolding_all rfl
theorem RoundTrip.cfgpins (n : BitVec 2) (f : DualL) : RoundTrip.Statement (.cfgpins n f) := by
  intro h
  rcases cases_2 n with rfl | rfl | rfl | rfl
  all_goals show (decodeFields ⟨0b111100#6 ++ BitVec.extractLsb' 1 1 _, BitVec.getLsbD _ 0, f.l, f.i, f.cond, f.d, f.s⟩).map Instr.spell = _
  all_goals first
    | with_unfolding_all rfl
    | exact absurd h Bool.false_ne_true
theorem RoundTrip.jmptask (f : DualL) : RoundTrip.Statement (.jmptask f) := fun _ => by with_unfolding_all rfl
theorem RoundTrip.setxfr (f : DualL) : RoundTrip.Statement (.setxfr f) := fun _ => by with_unfolding_all rfl
theorem RoundTrip.setmix (f : DualL) : RoundTrip.Statement (.setmix f) := fun _ => by with_unfolding_all rfl
theorem RoundTrip.jz (f : DualP) : RoundTrip.Statement (.jz f) := fun _ => by with_unfolding_all rfl
theorem RoundTrip.jzd (f : DualP) : RoundTrip.Statement (.jzd f) := fun _ => by with_unfolding_all rfl
theorem RoundTrip.jnz (f : DualP) : RoundTrip.Statement (.jnz f) := fun _ => by with_unfolding_all rfl
theorem RoundTrip.jnzd (f : DualP) : RoundTrip.Statement (.jnzd f) := fun _ => by with_unfolding_all rfl
theorem RoundTrip.locbase (f : DualP) : RoundTrip.Statement (.locbase f) := fun _ => by with_unfolding_all rfl
theorem RoundTrip.locbyte (f : DualP) : RoundTrip.Statement (.locbyte f) := fun _ => by with_unfolding_all rfl
theorem RoundTrip.locword (f : DualP) : RoundTrip.Statement (.locword f) := fun _ => by with_unfolding_all rfl
theorem RoundTrip.loclong (f : DualP) : RoundTrip.Statement (.loclong f) := fun _ => by with_unfolding_all rfl
theorem RoundTrip.jmplist (f : DualP) : RoundTrip.Statement (.jmplist f) := fun _ => by with_unfolding_all rfl
theorem RoundTrip.locinst (f : Loc) : RoundTrip.Statement (.locinst f) := fun _ => by with_unfolding_all rfl
theorem RoundTrip.reps (n : BitVec 16) (i : BitVec 6) : RoundTrip.Statement (.reps n i) := by
  intro _
  refine Eq.trans (b := Except.ok (Instr.reps (n.extractLsb' 12 4 ++ (n.extractLsb' 3 9
    ++ (n.extractLsb' 0 3 ++ i).extractLsb' 6 3)) ((n.extractLsb' 0 3 ++ i).extractLsb' 0 6)))
    (by with_unfolding_all rfl) ?_
  rw [low_append, high_append, join_reps]
theorem RoundTrip.augs (n : BitVec 23) : RoundTrip.Statement (.augs n) := by
  intro _
  have j := join_aug n
  show (decodeFields ⟨0b1111101#7, true, false, n.getLsbD 22, n.extractLsb' 18 4, n.extractLsb' 9 9, n.extractLsb' 0 9⟩).map Instr.spell = _
  generalize n.getLsbD 22 = b at j ⊢
  cases b <;> simp only [decodeFields, Fields.row7] <;> exact congrArg (fun n => Except.ok (Instr.augs n)) j
theorem RoundTrip.augd (n : BitVec 23) : RoundTrip.Statement (.augd n) := by
  intro _
  have j := join_aug n
  show (decodeFields ⟨0b1111101#7, true, true, n.getLsbD 22, n.extractLsb' 18 4, n.extractLsb' 9 9, n.extractLsb' 0 9⟩).map Instr.spell = _
  generalize n.getLsbD 22 = b at j ⊢
  cases b <;> simp only [decodeFields, Fields.row7] <;> exact congrArg (fun n => Except.ok (Instr.augd n)) j
theorem RoundTrip.fixinda (f : Ind) : RoundTrip.Statement (.fixinda f) := fun _ => by with_unfolding_all rfl
theorem RoundTrip.fixindb (f : Ind) : RoundTrip.Statement (.fixindb f) := fun _ => by with_unfolding_all rfl
theorem RoundTrip.fixinds (f : Ind) : RoundTrip.Statement (.fixinds f) := fun _ => by with_unfolding_all rfl
theorem RoundTrip.setindaAbs (f : Ind) : RoundTrip.Statement (.setindaAbs f) := fun _ => by with_unfolding_all rfl
theorem RoundTrip.setindaRel (f : Ind) : RoundTrip.Statement (.setindaRel f) := fun _ => by with_unfolding_all rfl
theorem RoundTrip.setindbAbs (f : Ind) : RoundTrip.Statement (.setindbAbs f) := fun _ => by with_unfolding_all rfl
theorem RoundTrip.setindbRel (f : Ind) : RoundTrip.Statement (.setindbRel f) := fun _ => by with_unfolding_all rfl
theorem RoundTrip.setindsAbsAbs (f : Ind) : RoundTrip.Statement (.setindsAbsAbs f) := fun _ => by with_unfolding_all rfl
theorem RoundTrip.setindsAbsRel (f : Ind) : RoundTrip.Statement (.setindsAbsRel f) := fun _ => by with_unfolding_all rfl
theorem RoundTrip.setindsRelAbs (f : Ind) : RoundTrip.Statement (.setindsRelAbs f) := fun _ => by with_unfolding_all rfl
theorem RoundTrip.setindsRelRel (f : Ind) : RoundTrip.Statement (.setindsRelRel f) := fun _ => by with_unfolding_all rfl
theorem RoundTrip.locptraAbs (f : Big) : RoundTrip.Statement (.locptraAbs f) := by
  intro _
  obtain ⟨cond, n⟩ := f
  refine Eq.trans (congrArg (Except.map Instr.spell) (big_row _ rfl)) ?_
  simp only [Fields.big16, Instr.fields, big_d]
  refine Eq.trans (b := Except.ok (Instr.locptraAbs ⟨cond, _⟩)) (by with_unfolding_all rfl) ?_
  exact congrArg (fun n => Except.ok (Instr.locptraAbs ⟨cond, n⟩)) (big_n _ n)
theorem RoundTrip.locptraRel (f : Big) : RoundTrip.Statement (.locptraRel f) := by
  intro _
  obtain ⟨cond, n⟩ := f
  refine Eq.trans (congrArg (Except.map Instr.spell) (big_row _ rfl)) ?_
  simp only [Fields.big16, Instr.fields, big_d]
  refine Eq.trans (b := Except.ok (Instr.locptraRel ⟨cond, _⟩)) (by with_unfolding_all rfl) ?_
  exact congrArg (fun n => Except.ok (Instr.locptraRel ⟨cond, n⟩)) (big_n _ n)
theorem RoundTrip.locptrbAbs (f : Big) : RoundTrip.Statement (.locptrbAbs f) := by
  intro _
  obtain ⟨cond, n⟩ := f
  refine Eq.trans (congrArg (Except.map Instr.spell) (big_row _ rfl)) ?_
  simp only [Fields.big16, Instr.fields, big_d]
  refine Eq.trans (b := Except.ok (Instr.locptrbAbs ⟨cond, _⟩)) (by with_unfolding_all rfl) ?_
  exact congrArg (fun n => Except.ok (Instr.locptrbAbs ⟨cond, n⟩)) (big_n _ n)
theorem RoundTrip.locptrbRel (f : Big) : RoundTrip.Statement (.locptrbRel f) := by
  intro _
  obtain ⟨cond, n⟩ := f
  refine Eq.trans (congrArg (Except.map Instr.spell) (big_row _ rfl)) ?_
  simp only [Fields.big16, Instr.fields, big_d]
  refine Eq.trans (b := Except.ok (Instr.locptrbRel ⟨cond, _⟩)) (by with_unfolding_all rfl) ?_
  exact congrArg (fun n => Except.ok (Instr.locptrbRel ⟨cond, n⟩)) (big_n _ n)
theorem RoundTrip.jmpAbs (f : Big) : RoundTrip.Statement (.jmpAbs f) := by
  intro _
  obtain ⟨cond, n⟩ := f
  refine Eq.trans (congrArg (Except.map Instr.spell) (big_row _ rfl)) ?_
  simp only [Fields.big16, Instr.fields, big_d]
  refine Eq.trans (b := Except.ok (Instr.jmpAbs ⟨cond, _⟩)) (by with_unfolding_all rfl) ?_
  exact congrArg (fun n => Except.ok (Instr.jmpAbs ⟨cond, n⟩)) (big_n _ n)
theorem RoundTrip.jmpRel (f : Big) : RoundTrip.Statement (.jmpRel f) := by
  intro _
  obtain ⟨cond, n⟩ := f
  refine Eq.trans (congrArg (Except.map Instr.spell) (big_row _ rfl)) ?_
  simp only [Fields.big16, Instr.fields, big_d]
  refine Eq.trans (b := Except.ok (Instr.jmpRel ⟨cond, _⟩)) (by with_unfolding_all rfl) ?_
  exact congrArg (fun n => Except.ok (Instr.jmpRel ⟨cond, n⟩)) (big_n _ n)
theorem RoundTrip.jmpdAbs (f : Big) : RoundTrip.Statement (.jmpdAbs f) := by
  intro _
  obtain ⟨cond, n⟩ := f
  refine Eq.trans (congrArg (Except.map Instr.spell) (big_row _ rfl)) ?_
  simp only [Fields.big16, Instr.fields, big_d]
  refine Eq.trans (b := Except.ok (Instr.jmpdAbs ⟨cond, _⟩)) (by with_unfolding_all rfl) ?_
  exact congrArg (fun n => Except.ok (Instr.jmpdAbs ⟨cond, n⟩)) (big_n _ n)
theorem RoundTrip.jmpdRel (f : Big) : RoundTrip.Statement (.jmpdRel f) := by
  intro _
  obtain ⟨cond, n⟩ := f
  refine Eq.trans (congrArg (Except.map Instr.spell) (big_row _ rfl)) ?_
  simp only [Fields.big16, Instr.fields, big_d]
  refine Eq.trans (b := Except.ok (Instr.jmpdRel ⟨cond, _⟩)) (by with_unfolding_all rfl) ?_
  exact congrArg (fun n => Except.ok (Instr.jmpdRel ⟨cond, n⟩)) (big_n _ n)
theorem RoundTrip.callAbs (f : Big) : RoundTrip.Statement (.callAbs f) := by
  intro _
  obtain ⟨cond, n⟩ := f
  refine Eq.trans (congrArg (Except.map Instr.spell) (big_row _ rfl)) ?_
  simp only [Fields.big16, Instr.fields, big_d]
  refine Eq.trans (b := Except.ok (Instr.callAbs ⟨cond, _⟩)) (by with_unfolding_all rfl) ?_
  exact congrArg (fun n => Except.ok (Instr.callAbs ⟨cond, n⟩)) (big_n _ n)
theorem RoundTrip.callRel (f : Big) : RoundTrip.Statement (.callRel f) := by
  intro _
  obtain ⟨cond, n⟩ := f
  refine Eq.trans (congrArg (Except.map Instr.spell) (big_row _ rfl)) ?_
  simp only [Fields.big16, Instr.fields, big_d]
  refine Eq.trans (b := Except.ok (Instr.callRel ⟨cond, _⟩)) (by with_unfolding_all rfl) ?_
  exact congrArg (fun n => Except.ok (Instr.callRel ⟨cond, n⟩)) (big_n _ n)
theorem RoundTrip.calldAbs (f : Big) : RoundTrip.Statement (.calldAbs f) := by
  intro _
  obtain ⟨cond, n⟩ := f
  refine Eq.trans (congrArg (Except.map Instr.spell) (big_row _ rfl)) ?_
  simp only [Fields.big16, Instr.fields, big_d]
  refine Eq.trans (b := Except.ok (Instr.calldAbs ⟨cond, _⟩)) (by with_unfolding_all rfl) ?_
  exact congrArg (fun n => Except.ok (Instr.calldAbs ⟨cond, n⟩)) (big_n _ n)
theorem RoundTrip.calldRel (f : Big) : RoundTrip.Statement (.calldRel f) := by
  intro _
  obtain ⟨cond, n⟩ := f
  refine Eq.trans (congrArg (Except.map Instr.spell) (big_row _ rfl)) ?_
  simp only [Fields.big16, Instr.fields, big_d]
  refine Eq.trans (b := Except.ok (Instr.calldRel ⟨cond, _⟩)) (by with_unfolding_all rfl) ?_
  exact congrArg (fun n => Except.ok (Instr.calldRel ⟨cond, n⟩)) (big_n _ n)
theorem RoundTrip.callaAbs (f : Big) : RoundTrip.Statement (.callaAbs f) := by
  intro _
  obtain ⟨cond, n⟩ := f
  refine Eq.trans (congrArg (Except.map Instr.spell) (big_row _ rfl)) ?_
  simp only [Fields.big16, Instr.fields, big_d]
  refine Eq.trans (b := Except.ok (Instr.callaAbs ⟨cond, _⟩)) (by with_unfolding_all rfl) ?_
  exact congrArg (fun n => Except.ok (Instr.callaAbs ⟨cond, n⟩)) (big_n _ n)
theorem RoundTrip.callaRel (f : Big) : RoundTrip.Statement (.callaRel f) := by
  intro _
  obtain ⟨cond, n⟩ := f
  refine Eq.trans (congrArg (Except.map Instr.spell) (big_row _ rfl)) ?_
  simp only [Fields.big16, Instr.fields, big_d]
  refine Eq.trans (b := Except.ok (Instr.callaRel ⟨cond, _⟩)) (by with_unfolding_all rfl) ?_
  exact congrArg (fun n => Except.ok (Instr.callaRel ⟨cond, n⟩)) (big_n _ n)
theorem RoundTrip.calladAbs (f : Big) : RoundTrip.Statement (.calladAbs f) := by
  intro _
  obtain ⟨cond, n⟩ := f
  refine Eq.trans (congrArg (Except.map Instr.spell) (big_row _ rfl)) ?_
  simp only [Fields.big16, Instr.fields, big_d]
  refine Eq.trans (b := Except.ok (Instr.calladAbs ⟨cond, _⟩)) (by with_unfolding_all rfl) ?_
  exact congrArg (fun n => Except.ok (Instr.calladAbs ⟨cond, n⟩)) (big_n _ n)
theorem RoundTrip.calladRel (f : Big) : RoundTrip.Statement (.calladRel f) := by
  intro _
  obtain ⟨cond, n⟩ := f
  refine Eq.trans (congrArg (Except.map Instr.spell) (big_row _ rfl)) ?_
  simp only [Fields.big16, Instr.fields, big_d]
  refine Eq.trans (b := Except.ok (Instr.calladRel ⟨cond, _⟩)) (by with_unfolding_all rfl) ?_
  exact congrArg (fun n => Except.ok (Instr.calladRel ⟨cond, n⟩)) (big_n _ n)
theorem RoundTrip.callbAbs (f : Big) : RoundTrip.Statement (.callbAbs f) := by
  intro _
  obtain ⟨cond, n⟩ := f
  refine Eq.trans (congrArg (Except.map Instr.spell) (big_row _ rfl)) ?_
  simp only [Fields.big16, Instr.fields, big_d]
  refine Eq.trans (b := Except.ok (Instr.callbAbs ⟨cond, _⟩)) (by with_unfolding_all rfl) ?_
  exact congrArg (fun n => Except.ok (Instr.callbAbs ⟨cond, n⟩)) (big_n _ n)
theorem RoundTrip.callbRel (f : Big) : RoundTrip.Statement (.callbRel f) := by
  intro _
  obtain ⟨cond, n⟩ := f
  refine Eq.trans (congrArg (Except.map Instr.spell) (big_row _ rfl)) ?_
  simp only [Fields.big16, Instr.fields, big_d]
  refine Eq.trans (b := Except.ok (Instr.callbRel ⟨cond, _⟩)) (by with_unfolding_all rfl) ?_
  exact congrArg (fun n => Except.ok (Instr.callbRel ⟨cond, n⟩)) (big_n _ n)
theorem RoundTrip.callbdAbs (f : Big) : RoundTrip.Statement (.callbdAbs f) := by
  intro _
  obtain ⟨cond, n⟩ := f
  refine Eq.trans (congrArg (Except.map Instr.spell) (big_row _ rfl)) ?_
  simp only [Fields.big16, Instr.fields, big_d]
  refine Eq.trans (b := Except.ok (Instr.callbdAbs ⟨cond, _⟩)) (by with_unfolding_all rfl) ?_
  exact congrArg (fun n => Except.ok (Instr.callbdAbs ⟨cond, n⟩)) (big_n _ n)
theorem RoundTrip.callbdRel (f : Big) : RoundTrip.Statement (.callbdRel f) := by
  intro _
  obtain ⟨cond, n⟩ := f
  refine Eq.trans (congrArg (Except.map Instr.spell) (big_row _ rfl)) ?_
  simp only [Fields.big16, Instr.fields, big_d]
  refine Eq.trans (b := Except.ok (Instr.callbdRel ⟨cond, _⟩)) (by with_unfolding_all rfl) ?_
  exact congrArg (fun n => Except.ok (Instr.callbdRel ⟨cond, n⟩)) (big_n _ n)
theorem RoundTrip.callxAbs (f : Big) : RoundTrip.Statement (.callxAbs f) := by
  intro _
  obtain ⟨cond, n⟩ := f
  refine Eq.trans (congrArg (Except.map Instr.spell) (big_row _ rfl)) ?_
  simp only [Fields.big16, Instr.fields, big_d]
  refine Eq.trans (b := Except.ok (Instr.callxAbs ⟨cond, _⟩)) (by with_unfolding_all rfl) ?_
  exact congrArg (fun n => Except.ok (Instr.callxAbs ⟨cond, n⟩)) (big_n _ n)
theorem RoundTrip.callxRel (f : Big) : RoundTrip.Statement (.callxRel f) := by
  intro _
  obtain ⟨cond, n⟩ := f
  refine Eq.trans (congrArg (Except.map Instr.spell) (big_row _ rfl)) ?_
  simp only [Fields.big16, Instr.fields, big_d]
  refine Eq.trans (b := Except.ok (Instr.callxRel ⟨cond, _⟩)) (by with_unfolding_all rfl) ?_
  exact congrArg (fun n => Except.ok (Instr.callxRel ⟨cond, n⟩)) (big_n _ n)
theorem RoundTrip.callxdAbs (f : Big) : RoundTrip.Statement (.callxdAbs f) := by
  intro _
  obtain ⟨cond, n⟩ := f
  refine Eq.trans (congrArg (Except.map Instr.spell) (big_row _ rfl)) ?_
  simp only [Fields.big16, Instr.fields, big_d]
  refine Eq.trans (b := Except.ok (Instr.callxdAbs ⟨cond, _⟩)) (by with_unfolding_all rfl) ?_
  exact congrArg (fun n => Except.ok (Instr.callxdAbs ⟨cond, n⟩)) (big_n _ n)
theorem RoundTrip.callxdRel (f : Big) : RoundTrip.Statement (.callxdRel f) := by
  intro _
  obtain ⟨cond, n⟩ := f
  refine Eq.trans (congrArg (Except.map Instr.spell) (big_row _ rfl)) ?_
  simp only [Fields.big16, Instr.fields, big_d]
  refine Eq.trans (b := Except.ok (Instr.callxdRel ⟨cond, _⟩)) (by with_unfolding_all rfl) ?_
  exact congrArg (fun n => Except.ok (Instr.callxdRel ⟨cond, n⟩)) (big_n _ n)
theorem RoundTrip.callyAbs (f : Big) : RoundTrip.Statement (.callyAbs f) := by
  intro _
  obtain ⟨cond, n⟩ := f
  refine Eq.trans (congrArg (Except.map Instr.spell) (big_row _ rfl)) ?_
  simp only [Fields.big16, Instr.fields, big_d]
  refine Eq.trans (b := Except.ok (Instr.callyAbs ⟨cond, _⟩)) (by with_unfolding_all rfl) ?_
  exact congrArg (fun n => Except.ok (Instr.callyAbs ⟨cond, n⟩)) (big_n _ n)
theorem RoundTrip.callyRel (f : Big) : RoundTrip.Statement (.callyRel f) := by
  intro _
  obtain ⟨cond, n⟩ := f
  refine Eq.trans (congrArg (Except.map Instr.spell) (big_row _ rfl)) ?_
  simp only [Fields.big16, Instr.fields, big_d]
  refine Eq.trans (b := Except.ok (Instr.callyRel ⟨cond, _⟩)) (by with_unfolding_all rfl) ?_
  exact congrArg (fun n => Except.ok (Instr.callyRel ⟨cond, n⟩)) (big_n _ n)
theorem RoundTrip.callydAbs (f : Big) : RoundTrip.Statement (.callydAbs f) := by
  intro _
  obtain ⟨cond, n⟩ := f
  refine Eq.trans (congrArg (Except.map Instr.spell) (big_row _ rfl)) ?_
  simp only [Fields.big16, Instr.fields, big_d]
  refine Eq.trans (b := Except.ok (Instr.callydAbs ⟨cond, _⟩)) (by with_unfolding_all rfl) ?_
  exact congrArg (fun n => Except.ok (Instr.callydAbs ⟨cond, n⟩)) (big_n _ n)
theorem RoundTrip.callydRel (f : Big) : RoundTrip.Statement (.callydRel f) := by
  intro _
  obtain ⟨cond, n⟩ := f
  refine Eq.trans (congrArg (Except.map Instr.spell) (big_row _ rfl)) ?_
  simp only [Fields.big16, Instr.fields, big_d]
  refine Eq.trans (b := Except.ok (Instr.callydRel ⟨cond, _⟩)) (by with_unfolding_all rfl) ?_
  exact congrArg (fun n => Except.ok (Instr.callydRel ⟨cond, n⟩)) (big_n _ n)
theorem RoundTrip.cogid (f : SingleZC) : RoundTrip.Statement (.cogid f) :=
  fun _ => (congrArg (Except.map Instr.spell) (single00_row _ rfl 0b000000000#9 rfl (by decide))).trans
    (by with_unfolding_all rfl)
theorem RoundTrip.taskid (f : SingleZC) : RoundTrip.Statement (.taskid f) :=
  fun _ => (congrArg (Except.map Instr.spell) (single00_row _ rfl 0b000000001#9 rfl (by decide))).trans
    (by with_unfolding_all rfl)
theorem RoundTrip.locknew (f : SingleZC) : RoundTrip.Statement (.locknew f) :=
  fun _ => (congrArg (Except.map Instr.spell) (single00_row _ rfl 0b000000010#9 rfl (by decide))).trans
    (by with_unfolding_all rfl)
theorem RoundTrip.getlfsr (f : SingleZC) : RoundTrip.Statement (.getlfsr f) :=
  fun _ => (congrArg (Except.map Instr.spell) (single00_row _ rfl 0b000000011#9 rfl (by decide))).trans
    (by with_unfolding_all rfl)
theorem RoundTrip.getcnt (f : SingleZC) : RoundTrip.Statement (.getcnt f) :=
  fun _ => (congrArg (Except.map Instr.spell) (single00_row _ rfl 0b000000100#9 rfl (by decide))).trans
    (by with_unfolding_all rfl)
theorem RoundTrip.getcntx (f : SingleZC) : RoundTrip.Statement (.getcntx f) :=
  fun _ => (congrArg (Except.map Instr.spell) (single00_row _ rfl 0b000000101#9 rfl (by decide))).trans
    (by with_unfolding_all rfl)
theorem RoundTrip.getacal (f : SingleZC) : RoundTrip.Statement (.getacal f) :=
  fun _ => (congrArg (Except.map Instr.spell) (single00_row _ rfl 0b000000110#9 rfl (by decide))).trans
    (by with_unfolding_all rfl)
theorem RoundTrip.getacah (f : SingleZC) : RoundTrip.Statement (.getacah f) :=
  fun _ => (congrArg (Except.map Instr.spell) (single00_row _ rfl 0b000000111#9 rfl (by decide))).trans
    (by with_unfolding_all rfl)
theorem RoundTrip.getacbl (f : SingleZC) : RoundTrip.Statement (.getacbl f) :=
  fun _ => (congrArg (Except.map Instr.spell) (single00_row _ rfl 0b000001000#9 rfl (by decide))).trans
    (by with_unfolding_all rfl)
theorem RoundTrip.getacbh (f : SingleZC) : RoundTrip.Statement (.getacbh f) :=
  fun _ => (congrArg (Except.map Instr.spell) (single00_row _ rfl 0b000001001#9 rfl (by decide))).trans
    (by with_unfolding_all rfl)
theorem RoundTrip.getptra (f : SingleZC) : RoundTrip.Statement (.getptra f) :=
  fun _ => (congrArg (Except.map Instr.spell) (single00_row _ rfl 0b000001010#9 rfl (by decide))).trans
    (by with_unfolding_all rfl)
theorem RoundTrip.getptrb (f : SingleZC) : RoundTrip.Statement (.getptrb f) :=
  fun _ => (congrArg (Except.map Instr.spell) (single00_row _ rfl 0b000001011#9 rfl (by decide))).trans
    (by with_unfolding_all rfl)
theorem RoundTrip.getptrx (f : SingleZC) : RoundTrip.Statement (.getptrx f) :=
  fun _ => (congrArg (Except.map Instr.spell) (single00_row _ rfl 0b000001100#9 rfl (by decide))).trans
    (by with_unfolding_all rfl)
theorem RoundTrip.getptry (f : SingleZC) : RoundTrip.Statement (.getptry f) :=
  fun _ => (congrArg (Except.map Instr.spell) (single00_row _ rfl 0b000001101#9 rfl (by decide))).trans
    (by with_unfolding_all rfl)
theorem RoundTrip.serina (f : SingleZC) : RoundTrip.Statement (.serina f) :=
  fun _ => (congrArg (Except.map Instr.spell) (single00_row _ rfl 0b000001110#9 rfl (by decide))).trans
    (by with_unfolding_all rfl)
theorem RoundTrip.serinb (f : SingleZC) : RoundTrip.Statement (.serinb f) :=
  fun _ => (congrArg (Except.map Instr.spell) (single00_row _ rfl 0b000001111#9 rfl (by decide))).trans
    (by with_unfolding_all rfl)
theorem RoundTrip.getmull (f : SingleZC) : RoundTrip.Statement (.getmull f) :=
  fun _ => (congrArg (Except.map Instr.spell) (single01_row _ rfl 0b000010000#9 rfl (by decide))).trans
    (by with_unfolding_all rfl)
theorem RoundTrip.getmulh (f : SingleZC) : RoundTrip.Statement (.getmulh f) :=
  fun _ => (congrArg (Except.map Instr.spell) (single01_row _ rfl 0b000010001#9 rfl (by decide))).trans
    (by with_unfolding_all rfl)
theorem RoundTrip.getdivq (f : SingleZC) : RoundTrip.Statement (.getdivq f) :=
  fun _ => (congrArg (Except.map Instr.spell) (single01_row _ rfl 0b000010010#9 rfl (by decide))).trans
    (by with_unfolding_all rfl)
theorem RoundTrip.getdivr (f : SingleZC) : RoundTrip.Statement (.getdivr f) :=
  fun _ => (congrArg (Except.map Instr.spell) (single01_row _ rfl 0b000010011#9 rfl (by decide))).trans
    (by with_unfolding_all rfl)
theorem RoundTrip.getsqrt (f : SingleZC) : RoundTrip.Statement (.getsqrt f) :=
  fun _ => (congrArg (Except.map Instr.spell) (single01_row _ rfl 0b000010100#9 rfl (by decide))).trans
    (by with_unfolding_all rfl)
theorem RoundTrip.getqx (f : SingleZC) : RoundTrip.Statement (.getqx f) :=
  fun _ => (congrArg (Except.map Instr.spell) (single01_row _ rfl 0b000010101#9 rfl (by decide))).trans
    (by with_unfolding_all rfl)
theorem RoundTrip.getqy (f : SingleZC) : RoundTrip.Statement (.getqy f) :=
  fun _ => (congrArg (Except.map Instr.spell) (single01_row _ rfl 0b000010110#9 rfl (by decide))).trans
    (by with_unfolding_all rfl)
theorem RoundTrip.getqz (f : SingleZC) : RoundTrip.Statement (.getqz f) :=
  fun _ => (congrArg (Except.map Instr.spell) (single01_row _ rfl 0b000010111#9 rfl (by decide))).trans
    (by with_unfolding_all rfl)
theorem RoundTrip.getphsa (f : SingleZC) : RoundTrip.Statement (.getphsa f) :=
  fun _ => (congrArg (Except.map Instr.spell) (single01_row _ rfl 0b000011000#9 rfl (by decide))).trans
    (by with_unfolding_all rfl)
theorem RoundTrip.getphza (f : SingleZC) : RoundTrip.Statement (.getphza f) :=
  fun _ => (congrArg (Except.map Instr.spell) (single01_row _ rfl 0b000011001#9 rfl (by decide))).trans
    (by with_unfolding_all rfl)
theorem RoundTrip.getcosa (f : SingleZC) : RoundTrip.Statement (.getcosa f) :=
  fun _ => (congrArg (Except.map Instr.spell) (single01_row _ rfl 0b000011010#9 rfl (by decide))).trans
    (by with_unfolding_all rfl)
theorem RoundTrip.getsina (f : SingleZC) : RoundTrip.Statement (.getsina f) :=
  fun _ => (congrArg (Except.map Instr.spell) (single01_row _ rfl 0b000011011#9 rfl (by decide))).trans
    (by with_unfolding_all rfl)
theorem RoundTrip.getphsb (f : SingleZC) : RoundTrip.Statement (.getphsb f) :=
  fun _ => (congrArg (Except.map Instr.spell) (single01_row _ rfl 0b000011100#9 rfl (by decide))).trans
    (by with_unfolding_all rfl)
theorem RoundTrip.getphzb (f : SingleZC) : RoundTrip.Statement (.getphzb f) :=
  fun _ => (congrArg (Except.map Instr.spell) (single01_row _ rfl 0b000011101#9 rfl (by decide))).trans
    (by with_unfolding_all rfl)
theorem RoundTrip.getcosb (f : SingleZC) : RoundTrip.Statement (.getcosb f) :=
  fun _ => (congrArg (Except.map Instr.spell) (single01_row _ rfl 0b000011110#9 rfl (by decide))).trans
    (by with_unfolding_all rfl)
theorem RoundTrip.getsinb (f : SingleZC) : RoundTrip.Statement (.getsinb f) :=
  fun _ => (congrArg (Except.map Instr.spell) (single01_row _ rfl 0b000011111#9 rfl (by decide))).trans
    (by with_unfolding_all rfl)
theorem RoundTrip.pushzc (f : SingleZC) : RoundTrip.Statement (.pushzc f) :=
  fun _ => (congrArg (Except.map Instr.spell) (single02_row _ rfl 0b000100000#9 rfl (by decide))).trans
    (by with_unfolding_all rfl)
theorem RoundTrip.popzc (f : SingleZC) : RoundTrip.Statement (.popzc f) :=
  fun _ => (congrArg (Except.map Instr.spell) (single02_row _ rfl 0b000100001#9 rfl (by decide))).trans
    (by with_unfolding_all rfl)
theorem RoundTrip.subcnt (f : SingleZC) : RoundTrip.Statement (.subcnt f) :=
  fun _ => (congrArg (Except.map Instr.spell) (single02_row _ rfl 0b000100010#9 rfl (by decide))).trans
    (by with_unfolding_all rfl)
theorem RoundTrip.getpix (f : SingleZC) : RoundTrip.Statement (.getpix f) :=
  fun _ => (congrArg (Except.map Instr.spell) (single02_row _ rfl 0b000100011#9 rfl (by decide))).trans
    (by with_unfolding_all rfl)
theorem RoundTrip.binbcd (f : SingleZC) : RoundTrip.Statement (.binbcd f) :=
  fun _ => (congrArg (Except.map Instr.spell) (single02_row _ rfl 0b000100100#9 rfl (by decide))).trans
    (by with_unfolding_all rfl)
theorem RoundTrip.bcdbin (f : SingleZC) : RoundTrip.Statement (.bcdbin f) :=
  fun _ => (congrArg (Except.map Instr.spell) (single02_row _ rfl 0b000100101#9 rfl (by decide))).trans
    (by with_unfolding_all rfl)
theorem RoundTrip.bingry (f : SingleZC) : RoundTrip.Statement (.bingry f) :=
  fun _ => (congrArg (Except.map Instr.spell) (single02_row _ rfl 0b000100110#9 rfl (by decide))).trans
    (by with_unfolding_all rfl)
theorem RoundTrip.grybin (f : SingleZC) : RoundTrip.Statement (.grybin f) :=
  fun _ => (congrArg (Except.map Instr.spell) (single02_row _ rfl 0b000100111#9 rfl (by decide))).trans
    (by with_unfolding_all rfl)
theorem RoundTrip.eswap4 (f : SingleZC) : RoundTrip.Statement (.eswap4 f) :=
  fun _ => (congrArg (Except.map Instr.spell) (single02_row _ rfl 0b000101000#9 rfl (by decide))).trans
    (by with_unfolding_all rfl)
theorem RoundTrip.eswap8 (f : SingleZC) : RoundTrip.Statement (.eswap8 f) :=
  fun _ => (congrArg (Except.map Instr.spell) (single02_row _ rfl 0b000101001#9 rfl (by decide))).trans
    (by with_unfolding_all rfl)
theorem RoundTrip.seussf (f : SingleZC) : RoundTrip.Statement (.seussf f) :=
  fun _ => (congrArg (Except.map Instr.spell) (single02_row _ rfl 0b000101010#9 rfl (by decide))).trans
    (by with_unfolding_all rfl)
theorem RoundTrip.seussr (f : SingleZC) : RoundTrip.Statement (.seussr f) :=
  fun _ => (congrArg (Except.map Instr.spell) (single02_row _ rfl 0b000101011#9 rfl (by decide))).trans
    (by with_unfolding_all rfl)
theorem RoundTrip.incd (f : SingleZC) : RoundTrip.Statement (.incd f) :=
  fun _ => (congrArg (Except.map Instr.spell) (single02_row _ rfl 0b000101100#9 rfl (by decide))).trans
    (by with_unfolding_all rfl)
theorem RoundTrip.decd (f : SingleZC) : RoundTrip.Statement (.decd f) :=
  fun _ => (congrArg (Except.map Instr.spell) (single02_row _ rfl 0b000101101#9 rfl (by decide))).trans
    (by with_unfolding_all rfl)
theorem RoundTrip.incds (f : SingleZC) : RoundTrip.Statement (.incds f) :=
  fun _ => (congrArg (Except.map Instr.spell) (single02_row _ rfl 0b000101110#9 rfl (by decide))).trans
    (by with_unfolding_all rfl)
theorem RoundTrip.decds (f : SingleZC) : RoundTrip.Statement (.decds f) :=
  fun _ => (congrArg (Except.map Instr.spell) (single02_row _ rfl 0b000101111#9 rfl (by decide))).trans
    (by with_unfolding_all rfl)
theorem RoundTrip.pop (f : SingleZC) : RoundTrip.Statement (.pop f) :=
  fun _ => (congrArg (Except.map Instr.spell) (single03_row _ rfl 0b000110000#9 rfl (by decide))).trans
    (by with_unfolding_all rfl)
theorem RoundTrip.repd (i : BitVec 6) (f : SingleL) : RoundTrip.Statement (.repd i f) := by
  intro h
  refine Eq.trans (congrArg (Except.map Instr.spell) (repd_fields _ _ _ _ _ i)) ?_
  have h : (!f.l && f.d == 0x1FF#9) = false := by simpa only [Instr.wellFormed, Bool.not_eq_true'] using h
  simp only [Fields.repd, h, Bool.or_false, Bool.false_eq_true, if_false, low_append]
  rfl
theorem RoundTrip.repdInf (i : BitVec 6) (f : Zero0) : RoundTrip.Statement (.repdInf i f) := by
  intro _
  refine Eq.trans (congrArg (Except.map Instr.spell) (repd_fields _ _ _ _ _ i)) ?_
  refine Eq.trans (b := Except.ok (Instr.repdInf ((0b001#3 ++ i).extractLsb' 0 6) f)) (by with_unfolding_all rfl) ?_
  rw [low_append]
theorem RoundTrip.clkset (f : SingleL) : RoundTrip.Statement (.clkset f) :=
  fun _ => (congrArg (Except.map Instr.spell) (single08_row _ rfl 0b010000000#9 rfl (by decide))).trans
    (by with_unfolding_all rfl)
theorem RoundTrip.cogstop (f : SingleL) : RoundTrip.Statement (.cogstop f) :=
  fun _ => (congrArg (Except.map Instr.spell) (single08_row _ rfl 0b010000001#9 rfl (by decide))).trans
    (by with_unfolding_all rfl)
theorem RoundTrip.lockset (f : SingleCL) : RoundTrip.Statement (.lockset f) :=
  fun _ => (congrArg (Except.map Instr.spell) (single08_row _ rfl 0b010000010#9 rfl (by decide))).trans
    (by with_unfolding_all rfl)
theorem RoundTrip.lockclr (f : SingleCL) : RoundTrip.Statement (.lockclr f) :=
  fun _ => (congrArg (Except.map Instr.spell) (single08_row _ rfl 0b010000011#9 rfl (by decide))).trans
    (by with_unfolding_all rfl)
theorem RoundTrip.lockret (f : SingleL) : RoundTrip.Statement (.lockret f) :=
  fun _ => (congrArg (Except.map Instr.spell) (single08_row _ rfl 0b010000100#9 rfl (by decide))).trans
    (by with_unfolding_all rfl)
theorem RoundTrip.rdwidec (f : SingleL) : RoundTrip.Statement (.rdwidec f) :=
  fun _ => (congrArg (Except.map Instr.spell) (single08_row _ rfl 0b010000101#9 rfl (by decide))).trans
    (by with_unfolding_all rfl)
theorem RoundTrip.rdwide (f : SingleL) : RoundTrip.Statement (.rdwide f) :=
  fun _ => (congrArg (Except.map Instr.spell) (single08_row _ rfl 0b010000110#9 rfl (by decide))).trans
    (by with_unfolding_all rfl)
theorem RoundTrip.wrwide (f : SingleL) : RoundTrip.Statement (.wrwide f) :=
  fun _ => (congrArg (Except.map Instr.spell) (single08_row _ rfl 0b010000111#9 rfl (by decide))).trans
    (by with_unfolding_all rfl)
theorem RoundTrip.getp (f : SingleZCL) : RoundTrip.Statement (.getp f) :=
  fun _ => (congrArg (Except.map Instr.spell) (single08_row _ rfl 0b010001000#9 rfl (by decide))).trans
    (by with_unfolding_all rfl)
theorem RoundTrip.getnp (f : SingleZCL) : RoundTrip.Statement (.getnp f) :=
  fun _ => (congrArg (Except.map Instr.spell) (single08_row _ rfl 0b010001001#9 rfl (by decide))).trans
    (by with_unfolding_all rfl)
theorem RoundTrip.serouta (f : SingleCL) : RoundTrip.Statement (.serouta f) :=
  fun _ => (congrArg (Except.map Instr.spell) (single08_row _ rfl 0b010001010#9 rfl (by decide))).trans
    (by with_unfolding_all rfl)
theorem RoundTrip.seroutb (f : SingleCL) : RoundTrip.Statement (.seroutb f) :=
  fun _ => (congrArg (Except.map Instr.spell) (single08_row _ rfl 0b010001011#9 rfl (by decide))).trans
    (by with_unfolding_all rfl)
theorem RoundTrip.cmpcnt (f : SingleCL) : RoundTrip.Statement (.cmpcnt f) :=
  fun _ => (congrArg (Except.map Instr.spell) (single08_row _ rfl 0b010001100#9 rfl (by decide))).trans
    (by with_unfolding_all rfl)
theorem RoundTrip.waitpx (f : SingleCL) : RoundTrip.Statement (.waitpx f) :=
  fun _ => (congrArg (Except.map Instr.spell) (single08_row _ rfl 0b010001101#9 rfl (by decide))).trans
    (by with_unfolding_all rfl)
theorem RoundTrip.waitpr (f : SingleCL) : RoundTrip.Statement (.waitpr f) :=
  fun _ => (congrArg (Except.map Instr.spell) (single08_row _ rfl 0b010001110#9 rfl (by decide))).trans
    (by with_unfolding_all rfl)
theorem RoundTrip.waitpf (f : SingleCL) : RoundTrip.Statement (.waitpf f) :=
  fun _ => (congrArg (Except.map Instr.spell) (single08_row _ rfl 0b010001111#9 rfl (by decide))).trans
    (by with_unfolding_all rfl)
theorem RoundTrip.setzc (f : SingleZCL) : RoundTrip.Statement (.setzc f) :=
  fun _ => (congrArg (Except.map Instr.spell) (single09_row _ rfl 0b010010000#9 rfl (by decide))).trans
    (by with_unfolding_all rfl)
theorem RoundTrip.setmap (f : SingleL) : RoundTrip.Statement (.setmap f) :=
  fun _ => (congrArg (Except.map Instr.spell) (single09_row _ rfl 0b010010001#9 rfl (by decide))).trans
    (by with_unfolding_all rfl)
theorem RoundTrip.setxch (f : SingleL) : RoundTrip.Statement (.setxch f) :=
  fun _ => (congrArg (Except.map Instr.spell) (single09_row _ rfl 0b010010010#9 rfl (by decide))).trans
    (by with_unfolding_all rfl)
theorem RoundTrip.settask (f : SingleL) : RoundTrip.Statement (.settask f) :=
  fun _ => (congrArg (Except.map Instr.spell) (single09_row _ rfl 0b010010011#9 rfl (by decide))).trans
    (by with_unfolding_all rfl)
theorem RoundTrip.setrace (f : SingleL) : RoundTrip.Statement (.setrace f) :=
  fun _ => (congrArg (Except.map Instr.spell) (single09_row _ rfl 0b010010100#9 rfl (by decide))).trans
    (by with_unfolding_all rfl)
theorem RoundTrip.saracca (f : SingleL) : RoundTrip.Statement (.saracca f) :=
  fun _ => (congrArg (Except.map Instr.spell) (single09_row _ rfl 0b010010101#9 rfl (by decide))).trans
    (by with_unfolding_all rfl)
theorem RoundTrip.saraccb (f : SingleL) : RoundTrip.Statement (.saraccb f) :=
  fun _ => (congrArg (Except.map Instr.spell) (single09_row _ rfl 0b010010110#9 rfl (by decide))).trans
    (by with_unfolding_all rfl)
theorem RoundTrip.saraccs (f : SingleL) : RoundTrip.Statement (.saraccs f) :=
  fun _ => (congrArg (Except.map Instr.spell) (single09_row _ rfl 0b010010111#9 rfl (by decide))).trans
    (by with_unfolding_all rfl)
theorem RoundTrip.setptra (f : SingleL) : RoundTrip.Statement (.setptra f) :=
  fun _ => (congrArg (Except.map Instr.spell) (single09_row _ rfl 0b010011000#9 rfl (by decide))).trans
    (by with_unfolding_all rfl)
theorem RoundTrip.setptrb (f : SingleL) : RoundTrip.Statement (.setptrb f) :=
  fun _ => (congrArg (Except.map Instr.spell) (single09_row _ rfl 0b010011001#9 rfl (by decide))).trans
    (by with_unfolding_all rfl)
theorem RoundTrip.addptra (f : SingleL) : RoundTrip.Statement (.addptra f) :=
  fun _ => (congrArg (Except.map Instr.spell) (single09_row _ rfl 0b010011010#9 rfl (by decide))).trans
    (by with_unfolding_all rfl)
theorem RoundTrip.addptrb (f : SingleL) : RoundTrip.Statement (.addptrb f) :=
  fun _ => (congrArg (Except.map Instr.spell) (single09_row _ rfl 0b010011011#9 rfl (by decide))).trans
    (by with_unfolding_all rfl)
theorem RoundTrip.subptra (f : SingleL) : RoundTrip.Statement (.subptra f) :=
  fun _ => (congrArg (Except.map Instr.spell) (single09_row _ rfl 0b010011100#9 rfl (by decide))).trans
    (by with_unfolding_all rfl)
theorem RoundTrip.subptrb (f : SingleL) : RoundTrip.Statement (.subptrb f) :=
  fun _ => (congrArg (Except.map Instr.spell) (single09_row _ rfl 0b010011101#9 rfl (by decide))).trans
    (by with_unfolding_all rfl)
theorem RoundTrip.setwide (f : SingleL) : RoundTrip.Statement (.setwide f) :=
  fun _ => (congrArg (Except.map Instr.spell) (single09_row _ rfl 0b010011110#9 rfl (by decide))).trans
    (by with_unfolding_all rfl)
theorem RoundTrip.setwidz (f : SingleL) : RoundTrip.Statement (.setwidz f) :=
  fun _ => (congrArg (Except.map Instr.spell) (single09_row _ rfl 0b010011111#9 rfl (by decide))).trans
    (by with_unfolding_all rfl)
theorem RoundTrip.setptrx (f : SingleL) : RoundTrip.Statement (.setptrx f) :=
  fun _ => (congrArg (Except.map Instr.spell) (single10_row _ rfl 0b010100000#9 rfl (by decide))).trans
    (by with_unfolding_all rfl)
theorem RoundTrip.setptry (f : SingleL) : RoundTrip.Statement (.setptry f) :=
  fun _ => (congrArg (Except.map Instr.spell) (single10_row _ rfl 0b010100001#9 rfl (by decide))).trans
    (by with_unfolding_all rfl)
theorem RoundTrip.addptrx (f : SingleL) : RoundTrip.Statement (.addptrx f) :=
  fun _ => (congrArg (Except.map Instr.spell) (single10_row _ rfl 0b010100010#9 rfl (by decide))).trans
    (by with_unfolding_all rfl)
theorem RoundTrip.addptry (f : SingleL) : RoundTrip.Statement (.addptry f) :=
  fun _ => (congrArg (Except.map Instr.spell) (single10_row _ rfl 0b010100011#9 rfl (by decide))).trans
    (by with_unfolding_all rfl)
theorem RoundTrip.subptrx (f : SingleL) : RoundTrip.Statement (.subptrx f) :=
  fun _ => (congrArg (Except.map Instr.spell) (single10_row _ rfl 0b010100100#9 rfl (by decide))).trans
    (by with_unfolding_all rfl)
theorem RoundTrip.subptry (f : SingleL) : RoundTrip.Statement (.subptry f) :=
  fun _ => (congrArg (Except.map Instr.spell) (single10_row _ rfl 0b010100101#9 rfl (by decide))).trans
    (by with_unfolding_all rfl)
theorem RoundTrip.passcnt (f : SingleL) : RoundTrip.Statement (.passcnt f) :=
  fun _ => (congrArg (Except.map Instr.spell) (single10_row _ rfl 0b010100110#9 rfl (by decide))).trans
    (by with_unfolding_all rfl)
theorem RoundTrip.wait (f : SingleL) : RoundTrip.Statement (.wait f) :=
  fun _ => (congrArg (Except.map Instr.spell) (single10_row _ rfl 0b010100111#9 rfl (by decide))).trans
    (by with_unfolding_all rfl)
theorem RoundTrip.offp (f : SingleL) : RoundTrip.Statement (.offp f) :=
  fun _ => (congrArg (Except.map Instr.spell) (single10_row _ rfl 0b010101000#9 rfl (by decide))).trans
    (by with_unfolding_all rfl)
theorem RoundTrip.notp (f : SingleL) : RoundTrip.Statement (.notp f) :=
  fun _ => (congrArg (Except.map Instr.spell) (single10_row _ rfl 0b010101001#9 rfl (by decide))).trans
    (by with_unfolding_all rfl)
theorem RoundTrip.clrp (f : SingleL) : RoundTrip.Statement (.clrp f) :=
  fun _ => (congrArg (Except.map Instr.spell) (single10_row _ rfl 0b010101010#9 rfl (by decide))).trans
    (by with_unfolding_all rfl)
theorem RoundTrip.setp (f : SingleL) : RoundTrip.Statement (.setp f) :=
  fun _ => (congrArg (Except.map Instr.spell) (single10_row _ rfl 0b010101011#9 rfl (by decide))).trans
    (by with_unfolding_all rfl)
theorem RoundTrip.setpc (f : SingleL) : RoundTrip.Statement (.setpc f) :=
  fun _ => (congrArg (Except.map Instr.spell) (single10_row _ rfl 0b010101100#9 rfl (by decide))).trans
    (by with_unfolding_all rfl)
theorem RoundTrip.setpnc (f : SingleL) : RoundTrip.Statement (.setpnc f) :=
  fun _ => (congrArg (Except.map Instr.spell) (single10_row _ rfl 0b010101101#9 rfl (by decide))).trans
    (by with_unfolding_all rfl)
theorem RoundTrip.setpz (f : SingleL) : RoundTrip.Statement (.setpz f) :=
  fun _ => (congrArg (Except.map Instr.spell) (single10_row _ rfl 0b010101110#9 rfl (by decide))).trans
    (by with_unfolding_all rfl)
theorem RoundTrip.setpnz (f : SingleL) : RoundTrip.Statement (.setpnz f) :=
  fun _ => (congrArg (Except.map Instr.spell) (single10_row _ rfl 0b010101111#9 rfl (by decide))).trans
    (by with_unfolding_all rfl)
theorem RoundTrip.div64d (f : SingleL) : RoundTrip.Statement (.div64d f) :=
  fun _ => (congrArg (Except.map Instr.spell) (single11_row _ rfl 0b010110000#9 rfl (by decide))).trans
    (by with_unfolding_all rfl)
theorem RoundTrip.sqrt32 (f : SingleL) : RoundTrip.Statement (.sqrt32 f) :=
  fun _ => (congrArg (Except.map Instr.spell) (single11_row _ rfl 0b010110001#9 rfl (by decide))).trans
    (by with_unfolding_all rfl)
theorem RoundTrip.qlog (f : SingleL) : RoundTrip.Statement (.qlog f) :=
  fun _ => (congrArg (Except.map Instr.spell) (single11_row _ rfl 0b010110010#9 rfl (by decide))).trans
    (by with_unfolding_all rfl)
theorem RoundTrip.qexp (f : SingleL) : RoundTrip.Statement (.qexp f) :=
  fun _ => (congrArg (Except.map Instr.spell) (single11_row _ rfl 0b010110011#9 rfl (by decide))).trans
    (by with_unfolding_all rfl)
theorem RoundTrip.setqi (f : SingleL) : RoundTrip.Statement (.setqi f) :=
  fun _ => (congrArg (Except.map Instr.spell) (single11_row _ rfl 0b010110100#9 rfl (by decide))).trans
    (by with_unfolding_all rfl)
theorem RoundTrip.setqz (f : SingleL) : RoundTrip.Statement (.setqz f) :=
  fun _ => (congrArg (Except.map Instr.spell) (single11_row _ rfl 0b010110101#9 rfl (by decide))).trans
    (by with_unfolding_all rfl)
theorem RoundTrip.cfgdacs (f : SingleL) : RoundTrip.Statement (.cfgdacs f) :=
  fun _ => (congrArg (Except.map Instr.spell) (single11_row _ rfl 0b010110110#9 rfl (by decide))).trans
    (by with_unfolding_all rfl)
theorem RoundTrip.setdacs (f : SingleL) : RoundTrip.Statement (.setdacs f) :=
  fun _ => (congrArg (Except.map Instr.spell) (single11_row _ rfl 0b010110111#9 rfl (by decide))).trans
    (by with_unfolding_all rfl)
theorem RoundTrip.cfgdac0 (f : SingleL) : RoundTrip.Statement (.cfgdac0 f) :=
  fun _ => (congrArg (Except.map Instr.spell) (single11_row _ rfl 0b010111000#9 rfl (by decide))).trans
    (by with_unfolding_all rfl)
theorem RoundTrip.cfgdac1 (f : SingleL) : RoundTrip.Statement (.cfgdac1 f) :=
  fun _ => (congrArg (Except.map Instr.spell) (single11_row _ rfl 0b010111001#9 rfl (by decide))).trans
    (by with_unfolding_all rfl)
theorem RoundTrip.cfgdac2 (f : SingleL) : RoundTrip.Statement (.cfgdac2 f) :=
  fun _ => (congrArg (Except.map Instr.spell) (single11_row _ rfl 0b010111010#9 rfl (by decide))).trans
    (by with_unfolding_all rfl)
theorem RoundTrip.cfgdac3 (f : SingleL) : RoundTrip.Statement (.cfgdac3 f) :=
  fun _ => (congrArg (Except.map Instr.spell) (single11_row _ rfl 0b010111011#9 rfl (by decide))).trans
    (by with_unfolding_all rfl)
theorem RoundTrip.setdac0 (f : SingleL) : RoundTrip.Statement (.setdac0 f) :=
  fun _ => (congrArg (Except.map Instr.spell) (single11_row _ rfl 0b010111100#9 rfl (by decide))).trans
    (by with_unfolding_all rfl)
theorem RoundTrip.setdac1 (f : SingleL) : RoundTrip.Statement (.setdac1 f) :=
  fun _ => (congrArg (Except.map Instr.spell) (single11_row _ rfl 0b010111101#9 rfl (by decide))).trans
    (by with_unfolding_all rfl)
theorem RoundTrip.setdac2 (f : SingleL) : RoundTrip.Statement (.setdac2 f) :=
  fun _ => (congrArg (Except.map Instr.spell) (single11_row _ rfl 0b010111110#9 rfl (by decide))).trans
    (by with_unfolding_all rfl)
theorem RoundTrip.setdac3 (f : SingleL) : RoundTrip.Statement (.setdac3 f) :=
  fun _ => (congrArg (Except.map Instr.spell) (single11_row _ rfl 0b010111111#9 rfl (by decide))).trans
    (by with_unfolding_all rfl)
theorem RoundTrip.setctra (f : SingleL) : RoundTrip.Statement (.setctra f) :=
  fun _ => (congrArg (Except.map Instr.spell) (single12_row _ rfl 0b011000000#9 rfl (by decide))).trans
    (by with_unfolding_all rfl)
theorem RoundTrip.setwava (f : SingleL) : RoundTrip.Statement (.setwava f) :=
  fun _ => (congrArg (Except.map Instr.spell) (single12_row _ rfl 0b011000001#9 rfl (by decide))).trans
    (by with_unfolding_all rfl)
theorem RoundTrip.setfrqa (f : SingleL) : RoundTrip.Statement (.setfrqa f) :=
  fun _ => (congrArg (Except.map Instr.spell) (single12_row _ rfl 0b011000010#9 rfl (by decide))).trans
    (by with_unfolding_all rfl)
theorem RoundTrip.setphsa (f : SingleL) : RoundTrip.Statement (.setphsa f) :=
  fun _ => (congrArg (Except.map Instr.spell) (single12_row _ rfl 0b011000011#9 rfl (by decide))).trans
    (by with_unfolding_all rfl)
theorem RoundTrip.addphsa (f : SingleL) : RoundTrip.Statement (.addphsa f) :=
  fun _ => (congrArg (Except.map Instr.spell) (single12_row _ rfl 0b011000100#9 rfl (by decide))).trans
    (by with_unfolding_all rfl)
theorem RoundTrip.subphsa (f : SingleL) : RoundTrip.Statement (.subphsa f) :=
  fun _ => (congrArg (Except.map Instr.spell) (single12_row _ rfl 0b011000101#9 rfl (by decide))).trans
    (by with_unfolding_all rfl)
theorem RoundTrip.setvid (f : SingleL) : RoundTrip.Statement (.setvid f) :=
  fun _ => (congrArg (Except.map Instr.spell) (single12_row _ rfl 0b011000110#9 rfl (by decide))).trans
    (by with_unfolding_all rfl)
theorem RoundTrip.setvidy (f : SingleL) : RoundTrip.Statement (.setvidy f) :=
  fun _ => (congrArg (Except.map Instr.spell) (single12_row _ rfl 0b011000111#9 rfl (by decide))).trans
    (by with_unfolding_all rfl)
theorem RoundTrip.setctrb (f : SingleL) : RoundTrip.Statement (.setctrb f) :=
  fun _ => (congrArg (Except.map Instr.spell) (single12_row _ rfl 0b011001000#9 rfl (by decide))).trans
    (by with_unfolding_all rfl)
theorem RoundTrip.setwavb (f : SingleL) : RoundTrip.Statement (.setwavb f) :=
  fun _ => (congrArg (Except.map Instr.spell) (single12_row _ rfl 0b011001001#9 rfl (by decide))).trans
    (by with_unfolding_all rfl)
theorem RoundTrip.setfrqb (f : SingleL) : RoundTrip.Statement (.setfrqb f) :=
  fun _ => (congrArg (Except.map Instr.spell) (single12_row _ rfl 0b011001010#9 rfl (by decide))).trans
    (by with_unfolding_all rfl)
theorem RoundTrip.setphsb (f : SingleL) : RoundTrip.Statement (.setphsb f) :=
  fun _ => (congrArg (Except.map Instr.spell) (single12_row _ rfl 0b011001011#9 rfl (by decide))).trans
    (by with_unfolding_all rfl)
theorem RoundTrip.addphsb (f : SingleL) : RoundTrip.Statement (.addphsb f) :=
  fun _ => (congrArg (Except.map Instr.spell) (single12_row _ rfl 0b011001100#9 rfl (by decide))).trans
    (by with_unfolding_all rfl)
theorem RoundTrip.subphsb (f : SingleL) : RoundTrip.Statement (.subphsb f) :=
  fun _ => (congrArg (Except.map Instr.spell) (single12_row _ rfl 0b011001101#9 rfl (by decide))).trans
    (by with_unfolding_all rfl)
theorem RoundTrip.setvidi (f : SingleL) : RoundTrip.Statement (.setvidi f) :=
  fun _ => (congrArg (Except.map Instr.spell) (single12_row _ rfl 0b011001110#9 rfl (by decide))).trans
    (by with_unfolding_all rfl)
theorem RoundTrip.setvidq (f : SingleL) : RoundTrip.Statement (.setvidq f) :=
  fun _ => (congrArg (Except.map Instr.spell) (single12_row _ rfl 0b011001111#9 rfl (by decide))).trans
    (by with_unfolding_all rfl)
theorem RoundTrip.setpix (f : SingleL) : RoundTrip.Statement (.setpix f) :=
  fun _ => (congrArg (Except.map Instr.spell) (single13_row _ rfl 0b011010000#9 rfl (by decide))).trans
    (by with_unfolding_all rfl)
theorem RoundTrip.setpixz (f : SingleL) : RoundTrip.Statement (.setpixz f) :=
  fun _ => (congrArg (Except.map Instr.spell) (single13_row _ rfl 0b011010001#9 rfl (by decide))).trans
    (by with_unfolding_all rfl)
theorem RoundTrip.setpixu (f : SingleL) : RoundTrip.Statement (.setpixu f) :=
  fun _ => (congrArg (Except.map Instr.spell) (single13_row _ rfl 0b011010010#9 rfl (by decide))).trans
    (by with_unfolding_all rfl)
theorem RoundTrip.setpixv (f : SingleL) : RoundTrip.Statement (.setpixv f) :=
  fun _ => (congrArg (Except.map Instr.spell) (single13_row _ rfl 0b011010011#9 rfl (by decide))).trans
    (by with_unfolding_all rfl)
theorem RoundTrip.setpixa (f : SingleL) : RoundTrip.Statement (.setpixa f) :=
  fun _ => (congrArg (Except.map Instr.spell) (single13_row _ rfl 0b011010100#9 rfl (by decide))).trans
    (by with_unfolding_all rfl)
theorem RoundTrip.setpixr (f : SingleL) : RoundTrip.Statement (.setpixr f) :=
  fun _ => (congrArg (Except.map Instr.spell) (single13_row _ rfl 0b011010101#9 rfl (by decide))).trans
    (by with_unfolding_all rfl)
theorem RoundTrip.setpixg (f : SingleL) : RoundTrip.Statement (.setpixg f) :=
  fun _ => (congrArg (Except.map Instr.spell) (single13_row _ rfl 0b011010110#9 rfl (by decide))).trans
    (by with_unfolding_all rfl)
theorem RoundTrip.setpixb (f : SingleL) : RoundTrip.Statement (.setpixb f) :=
  fun _ => (congrArg (Except.map Instr.spell) (single13_row _ rfl 0b011010111#9 rfl (by decide))).trans
    (by with_unfolding_all rfl)
theorem RoundTrip.setpora (f : SingleL) : RoundTrip.Statement (.setpora f) :=
  fun _ => (congrArg (Except.map Instr.spell) (single13_row _ rfl 0b011011000#9 rfl (by decide))).trans
    (by with_unfolding_all rfl)
theorem RoundTrip.setporb (f : SingleL) : RoundTrip.Statement (.setporb f) :=
  fun _ => (congrArg (Except.map Instr.spell) (single13_row _ rfl 0b011011001#9 rfl (by decide))).trans
    (by with_unfolding_all rfl)
theorem RoundTrip.setporc (f : SingleL) : RoundTrip.Statement (.setporc f) :=
  fun _ => (congrArg (Except.map Instr.spell) (single13_row _ rfl 0b011011010#9 rfl (by decide))).trans
    (by with_unfolding_all rfl)
theorem RoundTrip.setpord (f : SingleL) : RoundTrip.Statement (.setpord f) :=
  fun _ => (congrArg (Except.map Instr.spell) (single13_row _ rfl 0b011011011#9 rfl (by decide))).trans
    (by with_unfolding_all rfl)
theorem RoundTrip.push (f : SingleL) : RoundTrip.Statement (.push f) :=
  fun _ => (congrArg (Except.map Instr.spell) (single13_row _ rfl 0b011011100#9 rfl (by decide))).trans
    (by with_unfolding_all rfl)
theorem RoundTrip.jmpReg (f : SingleZC) : RoundTrip.Statement (.jmpReg f) :=
  fun _ => (congrArg (Except.map Instr.spell) (single15_row _ rfl 0b011110100#9 rfl (by decide))).trans
    (by with_unfolding_all rfl)
theorem RoundTrip.jmpdReg (f : SingleZC) : RoundTrip.Statement (.jmpdReg f) :=
  fun _ => (congrArg (Except.map Instr.spell) (single15_row _ rfl 0b011110101#9 rfl (by decide))).trans
    (by with_unfolding_all rfl)
theorem RoundTrip.callReg (f : SingleZC) : RoundTrip.Statement (.callReg f) :=
  fun _ => (congrArg (Except.map Instr.spell) (single15_row _ rfl 0b011110110#9 rfl (by decide))).trans
    (by with_unfolding_all rfl)
theorem RoundTrip.calldReg (f : SingleZC) : RoundTrip.Statement (.calldReg f) :=
  fun _ => (congrArg (Except.map Instr.spell) (single15_row _ rfl 0b011110111#9 rfl (by decide))).trans
    (by with_unfolding_all rfl)
theorem RoundTrip.callaReg (f : SingleZC) : RoundTrip.Statement (.callaReg f) :=
  fun _ => (congrArg (Except.map Instr.spell) (single15_row _ rfl 0b011111000#9 rfl (by decide))).trans
    (by with_unfolding_all rfl)
theorem RoundTrip.calladReg (f : SingleZC) : RoundTrip.Statement (.calladReg f) :=
  fun _ => (congrArg (Except.map Instr.spell) (single15_row _ rfl 0b011111001#9 rfl (by decide))).trans
    (by with_unfolding_all rfl)
theorem RoundTrip.callbReg (f : SingleZC) : RoundTrip.Statement (.callbReg f) :=
  fun _ => (congrArg (Except.map Instr.spell) (single15_row _ rfl 0b011111010#9 rfl (by decide))).trans
    (by with_unfolding_all rfl)
theorem RoundTrip.callbdReg (f : SingleZC) : RoundTrip.Statement (.callbdReg f) :=
  fun _ => (congrArg (Except.map Instr.spell) (single15_row _ rfl 0b011111011#9 rfl (by decide))).trans
    (by with_unfolding_all rfl)
theorem RoundTrip.callxReg (f : SingleZC) : RoundTrip.Statement (.callxReg f) :=
  fun _ => (congrArg (Except.map Instr.spell) (single15_row _ rfl 0b011111100#9 rfl (by decide))).trans
    (by with_unfolding_all rfl)
theorem RoundTrip.callxdReg (f : SingleZC) : RoundTrip.Statement (.callxdReg f) :=
  fun _ => (congrArg (Except.map Instr.spell) (single15_row _ rfl 0b011111101#9 rfl (by decide))).trans
    (by with_unfolding_all rfl)
theorem RoundTrip.callyReg (f : SingleZC) : RoundTrip.Statement (.callyReg f) :=
  fun _ => (congrArg (Except.map Instr.spell) (single15_row _ rfl 0b011111110#9 rfl (by decide))).trans
    (by with_unfolding_all rfl)
theorem RoundTrip.callydReg (f : SingleZC) : RoundTrip.Statement (.callydReg f) :=
  fun _ => (congrArg (Except.map Instr.spell) (single15_row _ rfl 0b011111111#9 rfl (by decide))).trans
    (by with_unfolding_all rfl)
theorem RoundTrip.reta (f : Zero0ZC) : RoundTrip.Statement (.reta f) :=
  fun _ => (congrArg (Except.map Instr.spell) (single16_row _ rfl 0b100000000#9 rfl (by decide))).trans
    (by with_unfolding_all rfl)
theorem RoundTrip.retad (f : Zero0ZC) : RoundTrip.Statement (.retad f) :=
  fun _ => (congrArg (Except.map Instr.spell) (single16_row _ rfl 0b100000001#9 rfl (by decide))).trans
    (by with_unfolding_all rfl)
theorem RoundTrip.retb (f : Zero0ZC) : RoundTrip.Statement (.retb f) :=
  fun _ => (congrArg (Except.map Instr.spell) (single16_row _ rfl 0b100000010#9 rfl (by decide))).trans
    (by with_unfolding_all rfl)
theorem RoundTrip.retbd (f : Zero0ZC) : RoundTrip.Statement (.retbd f) :=
  fun _ => (congrArg (Except.map Instr.spell) (single16_row _ rfl 0b100000011#9 rfl (by decide))).trans
    (by with_unfolding_all rfl)
theorem RoundTrip.retx (f : Zero0ZC) : RoundTrip.Statement (.retx f) :=
  fun _ => (congrArg (Except.map Instr.spell) (single16_row _ rfl 0b100000100#9 rfl (by decide))).trans
    (by with_unfolding_all rfl)
theorem RoundTrip.retxd (f : Zero0ZC) : RoundTrip.Statement (.retxd f) :=
  fun _ => (congrArg (Except.map Instr.spell) (single16_row _ rfl 0b100000101#9 rfl (by decide))).trans
    (by with_unfolding_all rfl)
theorem RoundTrip.rety (f : Zero0ZC) : RoundTrip.Statement (.rety f) :=
  fun _ => (congrArg (Except.map Instr.spell) (single16_row _ rfl 0b100000110#9 rfl (by decide))).trans
    (by with_unfolding_all rfl)
theorem RoundTrip.retyd (f : Zero0ZC) : RoundTrip.Statement (.retyd f) :=
  fun _ => (congrArg (Except.map Instr.spell) (single16_row _ rfl 0b100000111#9 rfl (by decide))).trans
    (by with_unfolding_all rfl)
theorem RoundTrip.ret (f : Zero0ZC) : RoundTrip.Statement (.ret f) :=
  fun _ => (congrArg (Except.map Instr.spell) (single16_row _ rfl 0b100001000#9 rfl (by decide))).trans
    (by with_unfolding_all rfl)
theorem RoundTrip.retd (f : Zero0ZC) : RoundTrip.Statement (.retd f) :=
  fun _ => (congrArg (Except.map Instr.spell) (single16_row _ rfl 0b100001001#9 rfl (by decide))).trans
    (by with_unfolding_all rfl)
theorem RoundTrip.polctra (f : Zero0ZC) : RoundTrip.Statement (.polctra f) :=
  fun _ => (congrArg (Except.map Instr.spell) (single16_row _ rfl 0b100001010#9 rfl (by decide))).trans
    (by with_unfolding_all rfl)
theorem RoundTrip.polctrb (f : Zero0ZC) : RoundTrip.Statement (.polctrb f) :=
  fun _ => (congrArg (Except.map Instr.spell) (single16_row _ rfl 0b100001011#9 rfl (by decide))).trans
    (by with_unfolding_all rfl)
theorem RoundTrip.polvid (f : Zero0ZC) : RoundTrip.Statement (.polvid f) :=
  fun _ => (congrArg (Except.map Instr.spell) (single16_row _ rfl 0b100001100#9 rfl (by decide))).trans
    (by with_unfolding_all rfl)
theorem RoundTrip.capctra (f : Zero0) : RoundTrip.Statement (.capctra f) :=
  fun _ => (congrArg (Except.map Instr.spell) (single16_row _ rfl 0b100001101#9 rfl (by decide))).trans
    (by with_unfolding_all rfl)
theorem RoundTrip.capctrb (f : Zero0) : RoundTrip.Statement (.capctrb f) :=
  fun _ => (congrArg (Except.map Instr.spell) (single16_row _ rfl 0b100001110#9 rfl (by decide))).trans
    (by with_unfolding_all rfl)
theorem RoundTrip.capctrs (f : Zero0) : RoundTrip.Statement (.capctrs f) :=
  fun _ => (congrArg (Except.map Instr.spell) (single16_row _ rfl 0b100001111#9 rfl (by decide))).trans
    (by with_unfolding_all rfl)
theorem RoundTrip.setpixw (f : Zero0) : RoundTrip.Statement (.setpixw f) :=
  fun _ => (congrArg (Except.map Instr.spell) (single17_row _ rfl 0b100010000#9 rfl (by decide))).trans
    (by with_unfolding_all rfl)
theorem RoundTrip.clracca (f : Zero0) : RoundTrip.Statement (.clracca f) :=
  fun _ => (congrArg (Except.map Instr.spell) (single17_row _ rfl 0b100010001#9 rfl (by decide))).trans
    (by with_unfolding_all rfl)
theorem RoundTrip.clraccb (f : Zero0) : RoundTrip.Statement (.clraccb f) :=
  fun _ => (congrArg (Except.map Instr.spell) (single17_row _ rfl 0b100010010#9 rfl (by decide))).trans
    (by with_unfolding_all rfl)
theorem RoundTrip.clraccs (f : Zero0) : RoundTrip.Statement (.clraccs f) :=
  fun _ => (congrArg (Except.map Instr.spell) (single17_row _ rfl 0b100010011#9 rfl (by decide))).trans
    (by with_unfolding_all rfl)
theorem RoundTrip.chkptrx (f : Zero0ZC) : RoundTrip.Statement (.chkptrx f) :=
  fun _ => (congrArg (Except.map Instr.spell) (single17_row _ rfl 0b100010100#9 rfl (by decide))).trans
    (by with_unfolding_all rfl)
theorem RoundTrip.chkptry (f : Zero0ZC) : RoundTrip.Statement (.chkptry f) :=
  fun _ => (congrArg (Except.map Instr.spell) (single17_row _ rfl 0b100010101#9 rfl (by decide))).trans
    (by with_unfolding_all rfl)
theorem RoundTrip.synctra (f : Zero0) : RoundTrip.Statement (.synctra f) :=
  fun _ => (congrArg (Except.map Instr.spell) (single17_row _ rfl 0b100010110#9 rfl (by decide))).trans
    (by with_unfolding_all rfl)
theorem RoundTrip.synctrb (f : Zero0) : RoundTrip.Statement (.synctrb f) :=
  fun _ => (congrArg (Except.map Instr.spell) (single17_row _ rfl 0b100010111#9 rfl (by decide))).trans
    (by with_unfolding_all rfl)
theorem RoundTrip.dcachex (f : Zero0) : RoundTrip.Statement (.dcachex f) :=
  fun _ => (congrArg (Except.map Instr.spell) (single17_row _ rfl 0b100011000#9 rfl (by decide))).trans
    (by with_unfolding_all rfl)
theorem RoundTrip.icachex (f : Zero0) : RoundTrip.Statement (.icachex f) :=
  fun _ => (congrArg (Except.map Instr.spell) (single17_row _ rfl 0b100011001#9 rfl (by decide))).trans
    (by with_unfolding_all rfl)
theorem RoundTrip.icachep (f : Zero0) : RoundTrip.Statement (.icachep f) :=
  fun _ => (congrArg (Except.map Instr.spell) (single17_row _ rfl 0b100011010#9 rfl (by decide))).trans
    (by with_unfolding_all rfl)
theorem RoundTrip.icachen (f : Zero0) : RoundTrip.Statement (.icachen f) :=
  fun _ => (congrArg (Except.map Instr.spell) (single17_row _ rfl 0b100011011#9 rfl (by decide))).trans
    (by with_unfolding_all rfl)
theorem RoundTrip.nop : RoundTrip.Statement (.nop) := fun _ => by with_unfolding_all rfl
theorem RoundTrip.mergen (f : DualP) : RoundTrip.Statement (.mergen f) :=
  fun h => absurd h Bool.false_ne_true
theorem RoundTrip.splitn (f : DualP) : RoundTrip.Statement (.splitn f) :=
  fun h => absurd h Bool.false_ne_true
theorem RoundTrip.switch : RoundTrip.Statement (.switch) := fun _ => by with_unfolding_all rfl
theorem RoundTrip.switchd : RoundTrip.Statement (.switchd) := fun _ => by with_unfolding_all rfl
theorem RoundTrip.pusha (f : SingleL) : RoundTrip.Statement (.pusha f) := fun _ => by with_unfolding_all rfl
theorem RoundTrip.pushb (f : SingleL) : RoundTrip.Statement (.pushb f) := fun _ => by with_unfolding_all rfl
theorem RoundTrip.popa (f : SingleZC) : RoundTrip.Statement (.popa f) := fun _ => by with_unfolding_all rfl
theorem RoundTrip.popb (f : SingleZC) : RoundTrip.Statement (.popb f) := fun _ => by with_unfolding_all rfl
theorem RoundTrip.pushx (f : SingleL) : RoundTrip.Statement (.pushx f) := fun _ => by with_unfolding_all rfl
theorem RoundTrip.pushy (f : SingleL) : RoundTrip.Statement (.pushy f) := fun _ => by with_unfolding_all rfl
theorem RoundTrip.popx (f : SingleZC) : RoundTrip.Statement (.popx f) := fun _ => by with_unfolding_all rfl
theorem RoundTrip.popy (f : SingleZC) : RoundTrip.Statement (.popy f) := fun _ => by with_unfolding_all rfl

end Sys2Proof.Laws
end

