-- ==== Sys2Proof/Laws/Wf.lean ====
section
/-!
SUPPORT. What keeps a state well-formed: one lemma per shared operation, from the update of one field up to the shapes of
instructions.
-/

set_option Elab.async false

namespace Sys2Proof.Machine

open Sys2Proof

variable {s t : State} {c k : Cog} {o : Operands} {go : State → Out} {stall : Nat} {d : RegAddr} {v : Word} {p : Addr}

/-! ### The parts of the property -/

theorem Cog.wf_iff : c.wf = true ↔ Sparse.wfFrom zeroes 0x1F4 0 c.ram = true ∧ Sparse.wfFrom zeroes 256 0 c.aux = true
    ∧ (∀ t, (c.tasks.get t).fits = true) ∧ c.sched.slot < slotCount c.sched.slots ∧ c.pipe.queue.length ≤ 3 := by
  have h : (∀ t, (c.tasks.get t).fits = true)
      ↔ c.tasks.e0.fits = true ∧ c.tasks.e1.fits = true ∧ c.tasks.e2.fits = true ∧ c.tasks.e3.fits = true :=
    ⟨fun h => ⟨h 0, h 1, h 2, h 3⟩, fun ⟨h0, h1, h2, h3⟩ t => by fin_cases t <;> assumption⟩
  simp only [Cog.wf, Bool.and_eq_true, decide_eq_true_eq, h, and_assoc]

theorem State.wf_iff : s.wf = true ↔ s.hub.mem.wf = true ∧ ∀ k, (s.cogs.get k).wf = true := by
  have h : (∀ k, (s.cogs.get k).wf = true) ↔ (s.cogs.toList.map Cog.wf).all id = true := by
    simp only [Octet.toList, List.map_cons, List.map_nil, List.all_cons, List.all_nil, id, Bool.and_true,
      Bool.and_eq_true]
    exact ⟨fun h => ⟨h 0, h 1, h 2, h 3, h 4, h 5, h 6, h 7⟩,
      fun ⟨h0, h1, h2, h3, h4, h5, h6, h7⟩ k => by fin_cases k <;> assumption⟩
  rw [h, State.wf, Bool.and_eq_true]

theorem State.wf_cog (h : s.wf = true) : s.cog.wf = true := (State.wf_iff.mp h).2 _

theorem State.wf_setCog (h : s.wf = true) (hc : c.wf = true) : (s.setCog c).wf = true := by
  rw [State.wf_iff] at h ⊢
  refine ⟨h.1, fun k => ?_⟩
  by_cases hk : k = s.cur
  · subst hk
    rw [show (s.setCog c).cogs.get s.cur = c from Octet.get_set_same _ _ _]
    exact hc
  · rw [State.cogs_setCog_ne _ _ hk]
    exact h.2 k

theorem State.wf_withHub {h : Hub} (hs : s.wf = true) (hm : h.mem.wf = true) : ({ s with hub := h } : State).wf = true :=
  State.wf_iff.mpr ⟨hm, (State.wf_iff.mp hs).2⟩

/-- A cog that agrees in register RAM, AUX, tasks and schedule, with a queue that is not longer. -/
theorem Cog.wf_of_same (h : c.wf = true) (hr : k.ram = c.ram) (ha : k.aux = c.aux) (ht : k.tasks = c.tasks)
    (hq : k.sched.slots = c.sched.slots) (hn : k.sched.slot = c.sched.slot)
    (hp : k.pipe.queue.length ≤ c.pipe.queue.length := by exact le_refl _) : k.wf = true := by
  rw [Cog.wf_iff] at h ⊢
  rw [hr, ha, ht, hq, hn]
  exact ⟨h.1, h.2.1, h.2.2.1, h.2.2.2.1, hp.trans h.2.2.2.2⟩

/-! ### Updates of a cog -/

theorem Quad.all_set {α : Type} {q : Quad α} {P : α → Prop} (i : Fin 4) {v : α} (h : ∀ t, P (q.get t)) (hv : P v) :
    ∀ t, P ((q.set i v).get t) := by
  intro t
  by_cases ht : t = i
  · subst ht
    rw [Quad.get_set_same]
    exact hv
  · rw [Quad.get_set_ne _ _ ht]
    exact h t

theorem Cog.task_fits (h : c.wf = true) : c.task.fits = true := (Cog.wf_iff.mp h).2.2.1 _

theorem Cog.wf_setTasks (h : c.wf = true) (i : Fin 4) {u : Task} (hu : u.fits = true) :
    ({ c with tasks := c.tasks.set i u } : Cog).wf = true := by
  rw [Cog.wf_iff] at h ⊢
  exact ⟨h.1, h.2.1, Quad.all_set (P := fun t : Task => t.fits = true) i h.2.2.1 hu, h.2.2.2⟩

theorem Cog.wf_setTask (h : c.wf = true) {u : Task} (hu : u.fits = true) : (c.setTask u).wf = true :=
  Cog.wf_setTasks h _ hu

/-- A task with the stack and the count of another that fits. -/
theorem Task.fits_of_same {u w : Task} (h : w.fits = true) (hs : u.stack = w.stack) (hd : u.dlyCount = w.dlyCount) :
    u.fits = true := by
  rw [Task.fits, hs, hd]
  exact h

theorem Cog.wf_setFlags (h : c.wf = true) (wz wc z b : Bool) : (c.setFlags wz wc z b).wf = true :=
  Cog.wf_setTask h (Task.fits_of_same (Cog.task_fits h) rfl rfl)

theorem Cog.wf_putPlain (h : c.wf = true) (a : RegAddr) (v : Word) : (c.putPlain a v).wf = true := by
  rw [Cog.wf_iff] at h ⊢
  unfold Cog.putPlain
  split_ifs with h1
  · exact ⟨Sparse.wfFrom_write (Nat.zero_le _) (by omega) h.1, h.2⟩
  · exact h
  · exact h
  · exact h

theorem Cog.wf_writeReg (h : c.wf = true) (a : RegAddr) (v : Word) : (c.writeReg a v).wf = true :=
  Cog.wf_of_same (Cog.wf_putPlain h a v) rfl rfl rfl rfl rfl

theorem Cog.wf_setAux (h : c.wf = true) (a : Byte) (v : Word) : ({ c with aux := auxWrite c.aux a v } : Cog).wf = true := by
  rw [Cog.wf_iff] at h ⊢
  exact ⟨h.1, wfFrom_auxWrite a v h.2.1, h.2.2⟩

theorem Task.fits_advance {u : Task} (h : u.fits = true) : u.advance.fits = true := by
  simp only [Task.fits, Bool.and_eq_true, decide_eq_true_eq] at h ⊢
  unfold Task.advance
  dsimp only
  split_ifs <;> dsimp only <;> omega

theorem slotCount_pos (w : Word) : 0 < slotCount w := by
  unfold slotCount
  split_ifs <;> omega

theorem Sched.slot_advance (q : Sched) : q.advance.slot < slotCount q.advance.slots := by
  unfold Sched.advance
  rcases hq : q.q1 with _ | w
  · by_cases h : q.slot + 1 < slotCount q.slots <;> simp [h, slotCount_pos]
  · exact slotCount_pos w

theorem Cog.wf_endCycle (h : c.wf = true) (stall : Nat) : (c.endCycle stall).wf = true := by
  rw [Cog.wf_iff] at h ⊢
  exact ⟨h.1, h.2.1, h.2.2.1, Sched.slot_advance _, h.2.2.2.2⟩

theorem Cog.wf_retire (h : c.wf = true) (stall : Nat) : (c.retire stall).wf = true :=
  Cog.wf_endCycle (Cog.wf_setTask h (Task.fits_advance (Cog.task_fits h))) stall

theorem Cog.wf_decoded (h : c.wf = true) (cond : BitVec 4) (du : DUse) (su : SUse) : (c.decoded cond du su).wf = true := by
  have := Cog.wf_setTask h (u := { c.task with
    augs := match su with | .imm _ => none | .rel _ => none | _ => c.task.augs
    augd := match du with | .imm _ => none | _ => c.task.augd }) (Task.fits_of_same (Cog.task_fits h) rfl rfl)
  exact Cog.wf_of_same this rfl rfl rfl rfl rfl

/-- Cancelling a task's instructions adds at most the one that is being fetched, and never to three. -/
theorem Cog.length_cancel (h : c.pipe.queue.length ≤ 3) (t : Fin 4) : (c.cancel t).length ≤ 3 := by
  unfold Cog.cancel
  dsimp only
  split_ifs with hq
  · simp only [List.length_map, Bool.and_eq_true, decide_eq_true_eq] at hq
    simp only [List.length_append, List.length_map, List.length_singleton]
    omega
  · simpa using h

/-- A cog with one task redirected, whatever its queue, as long as that has at most three entries. -/
theorem State.wf_redirect (h : c.wf = true) (s : State) (t : Fin 4) (p : Addr) : (s.redirect c t p).wf = true := by
  have h' := Cog.wf_iff.mp h
  have ht := h'.2.2.1 t
  simp only [Task.fits, Bool.and_eq_true, decide_eq_true_eq] at ht
  rw [Cog.wf_iff]
  refine ⟨h'.1, h'.2.1, Quad.all_set (P := fun t : Task => t.fits = true) t h'.2.2.1 ?_, h'.2.2.2.1,
    Cog.length_cancel h'.2.2.2.2 t⟩
  simp only [Task.fits, Bool.and_eq_true, decide_eq_true_eq]
  exact ⟨ht.1, Nat.zero_le _⟩

/-- The queue is filled for so many instruction cycles and no more. -/
theorem State.length_fillQueue (s : State) (c : Cog) (n : Nat) (q : Sched) (ts : Quad Task) (old : List Slot) (i : ICache) :
    (s.fillQueue c n q ts old i).queue.length ≤ n := by
  induction n generalizing q ts old i with
  | zero => exact Nat.zero_le _
  | succ n ih =>
    unfold State.fillQueue
    dsimp only
    repeat' split
    all_goals first | exact Nat.zero_le _ | exact Nat.succ_le_succ (ih _ _ _ _)

/-- Stage 1 keeps a cog well-formed. -/
theorem State.wf_prefetch (h : c.wf = true) (s : State) : (s.prefetch c).wf = true := by
  rw [Cog.wf_iff] at h ⊢
  exact ⟨h.1, h.2.1, h.2.2.1, h.2.2.2.1, State.length_fillQueue _ _ _ _ _ _ _⟩

theorem Cog.wf_delayed (h : c.wf = true) (p : Addr) : (c.delayed p).wf = true := by
  have ht := Cog.task_fits h
  simp only [Task.fits, Bool.and_eq_true, decide_eq_true_eq] at ht
  have hw := Cog.wf_setTask h (u := { c.task with
    pc := c.task.pc + 1, rep := { c.task.rep with active := false }, dlyTarget := p, dlyCount := 3 }) (by
      simp only [Task.fits, Bool.and_eq_true, decide_eq_true_eq]
      exact ⟨ht.1, le_refl _⟩)
  exact Cog.wf_of_same hw rfl rfl rfl rfl rfl

theorem Cog.wf_start (run : RunState) {ram aux : Sparse Word} (rom : BitVec 512) (ports : Ports)
    (hr : Sparse.wfFrom zeroes 0x1F4 0 ram = true) (ha : Sparse.wfFrom zeroes 256 0 aux = true) (pa pb : HubAddr) (n : Nat) :
    (Cog.start run ram rom aux ports pa pb n).wf = true := by
  rw [Cog.wf_iff]
  refine ⟨hr, ha, fun t => ?_, slotCount_pos _, Nat.zero_le _⟩
  fin_cases t <;> rfl

theorem Cog.wf_stopped {aux : Sparse Word} (ports : Ports) (ha : Sparse.wfFrom zeroes 256 0 aux = true) :
    (Cog.stopped aux ports).wf = true :=
  Cog.wf_start _ _ _ rfl ha _ _ _

/-! ### Outcomes -/

theorem State.keeps_next (h : t.wf = true) : Out.keeps (.next t) fun u => u.wf = true := by
  rintro _ ⟨⟩
  exact h

theorem State.keeps_refused (r : Refusal) {P : State → Prop} : Out.keeps (.refused r) P := by
  intro t h
  cases h

theorem State.keeps_fault (r : Fault) {P : State → Prop} : Out.keeps (.fault r) P := by
  intro t h
  cases h

theorem State.keeps_finish (h : s.wf = true) (hc : c.wf = true) (stall : Nat) :
    (s.finish c stall).keeps fun u => u.wf = true :=
  State.keeps_next (State.wf_setCog h (Cog.wf_retire hc stall))

theorem State.keeps_finishD (h : s.wf = true) (hc : c.wf = true) (d : RegAddr) (v : Word) (stall : Nat) :
    (s.finishD c d v stall).keeps fun u => u.wf = true := by
  unfold State.finishD
  split_ifs
  · exact State.keeps_refused _
  · exact State.keeps_finish h (Cog.wf_writeReg hc d v) stall

theorem State.keeps_branch (h : s.wf = true) (hc : c.wf = true) (p : Addr) (stall : Nat) :
    (s.branch c p stall).keeps fun u => u.wf = true := by
  unfold State.branch
  split_ifs
  · exact State.keeps_refused _
  · exact State.keeps_next (State.wf_setCog h (Cog.wf_endCycle (State.wf_redirect hc _ _ _) _))

theorem State.keeps_branchD (h : s.wf = true) (hc : c.wf = true) (p : Addr) (stall : Nat) :
    (s.branchD c p stall).keeps fun u => u.wf = true := by
  unfold State.branchD
  split_ifs
  · exact State.keeps_refused _
  · exact State.keeps_next (State.wf_setCog h (Cog.wf_endCycle (Cog.wf_delayed hc p) _))

theorem State.keeps_take (h : s.wf = true) (hc : c.wf = true) (p : Addr) (delayed : Bool) (stall : Nat) :
    (s.take c p delayed stall).keeps fun u => u.wf = true := by
  unfold State.take
  split_ifs
  · exact State.keeps_branchD h hc p stall
  · exact State.keeps_branch h hc p stall

theorem State.keeps_fallThrough (h : s.wf = true) (hc : c.wf = true) (stall : Nat) :
    (s.fallThrough c stall).keeps fun u => u.wf = true := by
  obtain ⟨b, hb⟩ := State.fallThrough_eq s c stall
  rw [hb]
  have ht : ({ c.task with rep := { c.task.rep with active := b } } : Task).fits = true := Cog.task_fits hc
  exact State.keeps_next (State.wf_setCog h (Cog.wf_retire (Cog.wf_setTask hc ht) _))

theorem State.keeps_hold (h : s.wf = true) (o : Operands) (pin : Bool) :
    (s.hold o pin).keeps fun u => u.wf = true :=
  State.keeps_next (State.wf_setCog h (Cog.wf_of_same (State.wf_cog h) rfl rfl rfl rfl rfl))

theorem State.keeps_atHub (h : s.wf = true) (o : Operands) (hg : (go s).keeps fun u => u.wf = true) :
    (s.atHub o go).keeps fun u => u.wf = true := by
  unfold State.atHub
  split_ifs
  · exact hg
  · exact State.keeps_hold h o _

theorem State.keeps_waitFor (h : s.wf = true) (o : Operands) (r : Bool) (hg : (go s).keeps fun u => u.wf = true) :
    (s.waitFor o r go).keeps fun u => u.wf = true := by
  unfold State.waitFor
  split_ifs
  · exact hg
  · exact State.keeps_branch h (State.wf_cog h) _ _
  · exact State.keeps_hold h o _

theorem State.keeps_withOperands (h : s.wf = true) (cond : BitVec 4) (du : DUse) (su : SUse) {body : Operands → State → Out}
    (hb : ∀ o u, u.wf = true → (body o u).keeps fun u => u.wf = true) :
    (s.withOperands cond du su body).keeps fun u => u.wf = true := by
  have h1 := State.wf_setCog h (Cog.wf_decoded (State.wf_cog h) cond du su)
  unfold State.withOperands
  split
  · exact hb _ _ h
  · dsimp only
    split_ifs
    · exact hb _ _ h1
    · exact State.keeps_finish h1 (State.wf_cog h1) _

theorem State.keeps_noAugs (b : Bool) {go : Out} (h : go.keeps fun u => u.wf = true) :
    (s.noAugs b go).keeps fun u => u.wf = true := by
  unfold State.noAugs
  split_ifs
  · exact State.keeps_refused _
  · exact h

theorem State.keeps_noAugd (b : Bool) {go : Out} (h : go.keeps fun u => u.wf = true) :
    (s.noAugd b go).keeps fun u => u.wf = true := by
  unfold State.noAugd
  split_ifs
  · exact State.keeps_refused _
  · exact h

theorem State.wf_startCog (h : s.wf = true) (k : Fin 8) (pgm par : Word) : (s.startCog k pgm par).wf = true := by
  rw [State.wf_iff] at h ⊢
  refine ⟨h.1, fun j => ?_⟩
  unfold State.startCog
  by_cases hj : j = k
  · subst hj
    simp only [Octet.get_set_same]
    exact Cog.wf_start _ _ _ (by simpa using wfFrom_loadImage s.hub.mem _ 0x1F4 0) (Cog.wf_iff.mp (h.2 j)).2.1 _ _ _
  · simp only [Octet.get_set_ne _ _ hj]
    exact h.2 j

theorem State.wf_stopCog (h : s.wf = true) (k : Fin 8) : (s.stopCog k).wf = true := by
  rw [State.wf_iff] at h ⊢
  refine ⟨h.1, fun j => ?_⟩
  unfold State.stopCog
  by_cases hj : j = k
  · subst hj
    simp only [Octet.get_set_same]
    exact Cog.wf_stopped _ (Cog.wf_iff.mp (h.2 j)).2.1
  · simp only [Octet.get_set_ne _ _ hj]
    exact h.2 j

theorem State.wf_chipReset (h : s.wf = true) : s.chipReset.wf = true := by
  rw [State.wf_iff] at h ⊢
  refine ⟨h.1, fun j => ?_⟩
  have hs (k : Fin 8) : (Cog.stopped (s.cogs.get k).aux (s.cogs.get k).ports).wf = true :=
    Cog.wf_stopped _ (Cog.wf_iff.mp (h.2 k)).2.1
  have h0 := Cog.wf_start .running 0 (Cog.stopped s.cogs.e0.aux s.cogs.e0.ports).ports (by simpa using wfFrom_loadImage s.hub.mem 0x00E00#18 0x1F4 0)
    (Cog.wf_iff.mp (h.2 0)).2.1 0 0x00E00#18 s.hub.hist.length
  fin_cases j
  · exact h0
  · exact hs 1
  · exact hs 2
  · exact hs 3
  · exact hs 4
  · exact hs 5
  · exact hs 6
  · exact hs 7

end Sys2Proof.Machine
end

