-- ==== Sys2Proof/Laws/WfShapes.lean ====
section
/-!
SUPPORT. What keeps a state well-formed, for the shapes instructions have.
-/

set_option Elab.async false

namespace Sys2Proof.Machine

open Sys2Proof

variable {s : State} {o : Operands}

/-! ### Shapes of Operands.lean -/

theorem State.keeps_putResult (h : s.wf = true) (o : Operands) (wz wc : Bool) (a : Result) (stall : Nat) :
    (s.putResult o wz wc a stall).keeps fun u => u.wf = true :=
  State.keeps_finishD h (Cog.wf_setFlags (State.wf_cog h) _ _ _ _) _ _ _

theorem State.keeps_putFlags (h : s.wf = true) (wz wc z c : Bool) :
    (s.putFlags wz wc z c).keeps fun u => u.wf = true :=
  State.keeps_finish h (Cog.wf_setFlags (State.wf_cog h) _ _ _ _) _

theorem State.keeps_dualOp (h : s.wf = true) (f : Dual) (alu : AluIn → Result) (stall : Nat) :
    (s.dualOp f alu stall).keeps fun u => u.wf = true :=
  State.keeps_withOperands h _ _ _ fun _ _ hu => State.keeps_putResult hu _ _ _ _ _

theorem State.keeps_dualTest (h : s.wf = true) (f : Dual) (alu : AluIn → Result) :
    (s.dualTest f alu).keeps fun u => u.wf = true :=
  State.keeps_withOperands h _ _ _ fun _ _ hu => State.keeps_putFlags hu _ _ _ _

theorem State.keeps_dualZOp (h : s.wf = true) (f : DualZ) (alu : AluIn → Result) (stall : Nat) :
    (s.dualZOp f alu stall).keeps fun u => u.wf = true :=
  State.keeps_withOperands h _ _ _ fun _ _ hu => State.keeps_putResult hu _ _ _ _ _

theorem State.keeps_dualCOp (h : s.wf = true) (f : DualC) (alu : AluIn → Result) :
    (s.dualCOp f alu).keeps fun u => u.wf = true :=
  State.keeps_withOperands h _ _ _ fun _ _ hu => State.keeps_putResult hu _ _ _ _ _

theorem State.keeps_dualPOp (h : s.wf = true) (f : DualP) (alu : AluIn → Word) (stall : Nat) :
    (s.dualPOp f alu stall).keeps fun u => u.wf = true :=
  State.keeps_withOperands h _ _ _ fun _ _ hu => State.keeps_finishD hu (State.wf_cog hu) _ _ _

theorem State.keeps_singleOp (h : s.wf = true) (f : SingleZC) (alu : AluIn → Result) (stall : Nat) :
    (s.singleOp f alu stall).keeps fun u => u.wf = true :=
  State.keeps_withOperands h _ _ _ fun _ _ hu => State.keeps_putResult hu _ _ _ _ _

theorem State.keeps_configL (h : s.wf = true) (f : SingleL) {g : Word → Cog → Cog}
    (hg : ∀ v c, c.wf = true → (g v c).wf = true) : (s.configL f g).keeps fun u => u.wf = true :=
  State.keeps_withOperands h _ _ _ fun _ _ hu => State.keeps_finish hu (hg _ _ (State.wf_cog hu)) _

theorem State.keeps_configLS (h : s.wf = true) (f : DualL) {g : Word → Word → Cog → Cog}
    (hg : ∀ d v c, c.wf = true → (g d v c).wf = true) : (s.configLS f g).keeps fun u => u.wf = true :=
  State.keeps_withOperands h _ _ _ fun _ _ hu => State.keeps_finish hu (hg _ _ _ (State.wf_cog hu)) _

theorem State.keeps_config0 (h : s.wf = true) (f : Zero0) {g : Cog → Cog} (hg : ∀ c, c.wf = true → (g c).wf = true) :
    (s.config0 f g).keeps fun u => u.wf = true :=
  State.keeps_withOperands h _ _ _ fun _ _ hu => State.keeps_finish hu (hg _ (State.wf_cog hu)) _

theorem State.keeps_readInto (h : s.wf = true) (f : SingleZC) (value : State → Word) {after : Cog → Cog}
    (hg : ∀ c, c.wf = true → (after c).wf = true) : (s.readInto f value after).keeps fun u => u.wf = true :=
  State.keeps_withOperands h _ _ _ fun _ _ hu =>
    State.keeps_finishD hu (Cog.wf_setFlags (hg _ (State.wf_cog hu)) _ _ _ _) _ _ _

theorem State.keeps_conditional (h : s.wf = true) (cond : BitVec 4) {body : Operands → State → Out}
    (hb : ∀ o u, u.wf = true → (body o u).keeps fun u => u.wf = true) :
    (s.conditional cond body).keeps fun u => u.wf = true :=
  State.keeps_withOperands h _ _ _ hb

/-! ### Hub memory and AUX -/

theorem Cog.wf_hubUse {c : Cog} (h : c.wf = true) (expr : Bool) (v : Word) (scale : Nat) :
    (c.hubUse expr v scale).cog.wf = true := by
  unfold Cog.hubUse Cog.pointer
  dsimp only
  split_ifs <;> exact h

theorem Cog.wf_auxUse {c : Cog} (h : c.wf = true) (constant : Bool) (v : Word) : (c.auxUse constant v).cog.wf = true := by
  unfold Cog.auxUse Cog.auxPointer
  dsimp only
  split_ifs <;> exact h

theorem State.keeps_hubRead (h : s.wf = true) (f : Dual) (scale : Nat) (read : Memory → HubAddr → Word) :
    (s.hubRead f scale read).keeps fun u => u.wf = true :=
  State.keeps_withOperands h _ _ _ fun _ _ hu => State.keeps_noAugs _ <| State.keeps_atHub hu _ <|
    State.keeps_finishD hu (Cog.wf_setFlags (Cog.wf_hubUse (State.wf_cog hu) _ _ _) _ _ _ _) _ _ _

theorem State.keeps_hubReadC (h : s.wf = true) (f : Dual) (scale : Nat) (pick : Octet Word → HubAddr → Word) :
    (s.hubReadC f scale pick).keeps fun u => u.wf = true := by
  refine State.keeps_withOperands h _ _ _ fun _ _ hu => State.keeps_noAugs _ ?_
  have hc := Cog.wf_hubUse (State.wf_cog hu) f.i
  dsimp only
  split_ifs
  · exact State.keeps_finishD hu (Cog.wf_setFlags (hc _ _) _ _ _ _) _ _ _
  · exact State.keeps_atHub hu _ <|
      State.keeps_finishD hu (Cog.wf_setFlags (c := Cog.reload _ _ _) (hc _ _) _ _ _ _) _ _ _

theorem State.keeps_hubWrite (h : s.wf = true) (f : DualL) (scale : Nat) {write : Hub → HubAddr → Word → Hub}
    (hw : ∀ b a v, b.mem.wf = true → (write b a v).mem.wf = true) :
    (s.hubWrite f scale write).keeps fun u => u.wf = true :=
  State.keeps_withOperands h _ _ _ fun _ _ hu => State.keeps_noAugs _ <| State.keeps_atHub hu _ <|
    State.keeps_finish (State.wf_withHub hu (hw _ _ _ (State.wf_iff.mp hu).1)) (Cog.wf_hubUse (State.wf_cog hu) _ _ _) _

theorem State.keeps_wideOp (h : s.wf = true) (f : SingleL) {body : HubUse → Operands → State → Out}
    (hb : ∀ u o t, u.cog.wf = true → t.wf = true → (body u o t).keeps fun u => u.wf = true) :
    (s.wideOp f body).keeps fun u => u.wf = true :=
  State.keeps_withOperands h _ _ _ fun _ _ hu => State.keeps_noAugd _ <|
    hb _ _ _ (Cog.wf_hubUse (State.wf_cog hu) _ _ _) hu

theorem State.keeps_auxFree {go : Out} (hg : go.keeps fun u => u.wf = true) :
    (s.auxFree go).keeps fun u => u.wf = true := by
  unfold State.auxFree
  split_ifs
  · exact State.keeps_refused _
  · exact hg

theorem State.keeps_auxLoad (h : s.wf = true) (f : Dual) (way : Byte → Byte) :
    (s.auxLoad f way).keeps fun u => u.wf = true :=
  State.keeps_withOperands h _ _ _ fun _ _ hu => State.keeps_noAugs _ <| State.keeps_auxFree <|
    State.keeps_finishD hu (Cog.wf_setFlags (Cog.wf_auxUse (State.wf_cog hu) _ _) _ _ _ _) _ _ _

theorem State.keeps_auxStore (h : s.wf = true) (f : DualL) (way : Byte → Byte) :
    (s.auxStore f way).keeps fun u => u.wf = true :=
  State.keeps_withOperands h _ _ _ fun _ _ hu => State.keeps_noAugs _ <| State.keeps_auxFree <|
    State.keeps_finish hu (Cog.wf_setAux (Cog.wf_auxUse (State.wf_cog hu) _ _) _ _) _

/-! ### Stacks -/

theorem State.keeps_pushTask (h : s.wf = true) (v : Word) {go : State → Out}
    (hg : ∀ u, u.wf = true → (go u).keeps fun u => u.wf = true) : (s.pushTask v go).keeps fun u => u.wf = true := by
  have hc := State.wf_cog h
  have ht : s.cog.task.fits = true := Cog.task_fits hc
  simp only [Task.fits, Bool.and_eq_true, decide_eq_true_eq] at ht
  unfold State.pushTask
  dsimp only
  split_ifs with hd
  · refine hg _ (State.wf_setCog h (Cog.wf_setTask hc ?_))
    simp only [Task.fits, Bool.and_eq_true, decide_eq_true_eq, List.length_cons]
    exact ⟨hd, ht.2⟩
  · exact State.keeps_fault _

theorem State.keeps_popTask (h : s.wf = true) {go : Word → State → Out}
    (hg : ∀ v u, u.wf = true → (go v u).keeps fun u => u.wf = true) : (s.popTask go).keeps fun u => u.wf = true := by
  have hc := State.wf_cog h
  have ht : s.task.fits = true := Cog.task_fits hc
  simp only [Task.fits, Bool.and_eq_true, decide_eq_true_eq] at ht
  unfold State.popTask
  dsimp only
  split
  · exact State.keeps_fault _
  · rename_i v rest hk
    refine hg _ _ (State.wf_setCog h (Cog.wf_setTask hc ?_))
    rw [hk, List.length_cons] at ht
    simp only [Task.fits, Bool.and_eq_true, decide_eq_true_eq]
    exact ⟨by omega, ht.2⟩

theorem State.keeps_pushOn (h : s.wf = true) (o : Operands) (k : CallStack) (v : Word) {go : State → Out}
    (hg : ∀ u, u.wf = true → (go u).keeps fun u => u.wf = true) : (s.pushOn o k v go).keeps fun u => u.wf = true := by
  have hc := State.wf_cog h
  have hm := (State.wf_iff.mp h).1
  cases k with
  | task => exact State.keeps_pushTask h v hg
  | hubA =>
    unfold State.pushOn
    refine State.keeps_atHub h o ?_
    exact hg _ (State.wf_setCog (State.wf_withHub h (Hub.wf_writeLong s.cog.ptra v hm)) (c := { s.cog with ptra := s.cog.ptra + 4 }) hc)
  | hubB =>
    unfold State.pushOn
    refine State.keeps_atHub h o ?_
    exact hg _ (State.wf_setCog (State.wf_withHub h (Hub.wf_writeLong s.cog.ptrb v hm)) (c := { s.cog with ptrb := s.cog.ptrb + 4 }) hc)
  | auxX =>
    refine State.keeps_auxFree (hg _ (State.wf_setCog h ?_))
    exact Cog.wf_setAux hc _ _
  | auxY =>
    refine State.keeps_auxFree (hg _ (State.wf_setCog h ?_))
    exact Cog.wf_setAux hc _ _

theorem State.keeps_popFrom (h : s.wf = true) (o : Operands) (k : CallStack) {go : Word → State → Out}
    (hg : ∀ v u, u.wf = true → (go v u).keeps fun u => u.wf = true) : (s.popFrom o k go).keeps fun u => u.wf = true := by
  have hc := State.wf_cog h
  cases k with
  | task => exact State.keeps_popTask h hg
  | hubA =>
    unfold State.popFrom
    refine State.keeps_atHub h o ?_
    exact hg _ _ (State.wf_setCog h (c := { s.cog with ptra := s.cog.ptra - 4 }) hc)
  | hubB =>
    unfold State.popFrom
    refine State.keeps_atHub h o ?_
    exact hg _ _ (State.wf_setCog h (c := { s.cog with ptrb := s.cog.ptrb - 4 }) hc)
  | auxX =>
    refine State.keeps_auxFree (hg _ _ (State.wf_setCog h ?_))
    exact hc
  | auxY =>
    refine State.keeps_auxFree (hg _ _ (State.wf_setCog h ?_))
    exact hc

/-! ### Branches -/

theorem State.keeps_jumpBig (h : s.wf = true) (f : Big) (rel delayed : Bool) :
    (s.jumpBig f rel delayed).keeps fun u => u.wf = true :=
  State.keeps_conditional h _ fun _ _ hu => State.keeps_noAugs _ <| State.keeps_take hu (State.wf_cog hu) _ _ _

theorem State.keeps_jumpReg (h : s.wf = true) (f : SingleZC) (delayed : Bool) :
    (s.jumpReg f delayed).keeps fun u => u.wf = true :=
  State.keeps_withOperands h _ _ _ fun _ _ hu => State.keeps_take hu (Cog.wf_setFlags (State.wf_cog hu) _ _ _ _) _ _ _

theorem State.keeps_callBig (h : s.wf = true) (f : Big) (k : CallStack) (rel delayed : Bool) :
    (s.callBig f k rel delayed).keeps fun u => u.wf = true :=
  State.keeps_conditional h _ fun _ _ hu => State.keeps_noAugs _ <| State.keeps_pushOn hu _ _ _ fun _ hw =>
    State.keeps_take hw (State.wf_cog hw) _ _ _

theorem State.keeps_callReg (h : s.wf = true) (f : SingleZC) (k : CallStack) (delayed : Bool) :
    (s.callReg f k delayed).keeps fun u => u.wf = true :=
  State.keeps_withOperands h _ _ _ fun _ _ hu => State.keeps_pushOn hu _ _ _ fun _ hw =>
    State.keeps_take hw (Cog.wf_setFlags (State.wf_cog hw) _ _ _ _) _ _ _

theorem State.keeps_ret (h : s.wf = true) (f : Zero0ZC) (k : CallStack) (delayed : Bool) :
    (s.ret f k delayed).keeps fun u => u.wf = true :=
  State.keeps_conditional h _ fun _ _ hu => State.keeps_popFrom hu _ _ fun _ _ hw =>
    State.keeps_take hw (Cog.wf_setFlags (State.wf_cog hw) _ _ _ _) _ _ _

theorem State.keeps_jumpSwap (h : s.wf = true) (f : Dual) (delayed : Bool) :
    (s.jumpSwap f delayed).keeps fun u => u.wf = true := by
  refine State.keeps_withOperands h _ _ _ fun _ _ hu => ?_
  dsimp only
  split_ifs
  · exact State.keeps_refused _
  · exact State.keeps_take hu (Cog.wf_writeReg (Cog.wf_setFlags (State.wf_cog hu) _ _ _ _) _ _) _ _ _

theorem State.keeps_countJump (h : s.wf = true) (f : DualP) (count : Word → Word) (test : Word → Bool) (delayed : Bool) :
    (s.countJump f count test delayed).keeps fun u => u.wf = true := by
  refine State.keeps_withOperands h _ _ _ fun _ _ hu => ?_
  dsimp only
  split_ifs
  · exact State.keeps_refused _
  · exact State.keeps_take hu (Cog.wf_writeReg (State.wf_cog hu) _ _) _ _ _
  · exact State.keeps_fallThrough hu (Cog.wf_writeReg (State.wf_cog hu) _ _) _

theorem State.keeps_testJump (h : s.wf = true) (f : DualP) (test : Word → Bool) (delayed : Bool) :
    (s.testJump f test delayed).keeps fun u => u.wf = true := by
  refine State.keeps_withOperands h _ _ _ fun _ _ hu => ?_
  split_ifs
  · exact State.keeps_take hu (State.wf_cog hu) _ _ _
  · exact State.keeps_fallThrough hu (State.wf_cog hu) _

theorem State.keeps_pinJump (h : s.wf = true) (f : DualL) (level delayed : Bool) :
    (s.pinJump f level delayed).keeps fun u => u.wf = true := by
  refine State.keeps_withOperands h _ _ _ fun _ _ hu => ?_
  split_ifs
  · exact State.keeps_take hu (State.wf_cog hu) _ _ _
  · exact State.keeps_fallThrough hu (State.wf_cog hu) _

theorem State.keeps_locPtr (h : s.wf = true) (f : Big) (rel : Bool) {put : HubAddr → Cog → Cog}
    (hp : ∀ a c, c.wf = true → (put a c).wf = true) : (s.locPtr f rel put).keeps fun u => u.wf = true :=
  State.keeps_conditional h _ fun _ _ hu => State.keeps_noAugs _ <| State.keeps_finish hu (hp _ _ (State.wf_cog hu)) _

theorem State.wf_jumpTask {c : Cog} (h : c.wf = true) (s : State) (b : Bool) (t : Fin 4) (p : Addr) :
    (if b then s.redirect c t p else c).wf = true := by
  split_ifs
  · exact State.wf_redirect h s t p
  · exact h

theorem State.keeps_jumpTasks (h : s.wf = true) (mask : BitVec 4) (p : Addr) :
    (s.jumpTasks mask p).keeps fun u => u.wf = true := by
  have hc := State.wf_jumpTask (State.wf_jumpTask (State.wf_jumpTask (State.wf_jumpTask (State.wf_cog h) s
    (mask.getLsbD 0) 0 p) s (mask.getLsbD 1) 1 p) s (mask.getLsbD 2) 2 p) s (mask.getLsbD 3) 3 p
  unfold State.jumpTasks
  dsimp only
  by_cases hb : mask.getLsbD s.cog.cur.val = true
  · rw [if_pos hb]
    exact State.keeps_next (State.wf_setCog h (Cog.wf_endCycle hc _))
  · rw [if_neg hb]
    exact State.keeps_finish h hc _

/-! ### The rest -/

theorem State.keeps_startRepeat (h : s.wf = true) (spacers : Nat) (i : BitVec 6) (left : Passes) :
    (s.startRepeat spacers i left).keeps fun u => u.wf = true := by
  have hc := State.wf_cog h
  unfold State.startRepeat
  dsimp only
  split_ifs
  · exact State.keeps_refused _
  · refine State.keeps_finish h (Cog.wf_setTask hc ?_) _
    exact Cog.task_fits hc

theorem State.keeps_endWait (h : s.wf = true) (wc met timeout : Bool) :
    (s.endWait wc met timeout).keeps fun u => u.wf = true :=
  State.keeps_finish h (Cog.wf_setFlags (State.wf_cog h) _ _ _ _) _

theorem State.keeps_waitPort (h : s.wf = true) (n : BitVec 2) (f : DualC) (test : Word → Word → Bool) :
    (s.waitPort n f test).keeps fun u => u.wf = true := by
  refine State.keeps_withOperands h _ _ _ fun _ _ hu => ?_
  dsimp only
  split_ifs
  · exact State.keeps_endWait hu _ _ _
  · exact State.keeps_hold hu _ _

theorem State.keeps_waitEdge (h : s.wf = true) (f : SingleCL) (edge : Bool → Bool → Bool) :
    (s.waitEdge f edge).keeps fun u => u.wf = true := by
  refine State.keeps_withOperands h _ _ _ fun _ _ hu => ?_
  dsimp only
  split_ifs
  · exact State.keeps_endWait hu _ _ _
  · exact State.keeps_hold hu _ _

theorem State.keeps_engineFree (left : MathUnit → Nat) {go : Out} (hg : go.keeps fun u => u.wf = true) :
    (s.engineFree left go).keeps fun u => u.wf = true := by
  unfold State.engineFree
  split_ifs
  · exact State.keeps_refused _
  · exact hg

theorem Cog.wf_withMath {c : Cog} (h : c.wf = true) (m : MathUnit) : (c.withMath m).wf = true := h

theorem State.keeps_startL (h : s.wf = true) (f : DualL) (left : MathUnit → Nat) (g : Operands → State → MathUnit) :
    (s.startL f left g).keeps fun u => u.wf = true :=
  State.keeps_withOperands h _ _ _ fun _ _ hu => State.keeps_engineFree _ <|
    State.keeps_finish hu (Cog.wf_withMath (State.wf_cog hu) _) _

theorem State.keeps_start1 (h : s.wf = true) (f : SingleL) (left : MathUnit → Nat) (g : Word → State → MathUnit) :
    (s.start1 f left g).keeps fun u => u.wf = true :=
  State.keeps_withOperands h _ _ _ fun _ _ hu => State.keeps_engineFree _ <|
    State.keeps_finish hu (Cog.wf_withMath (State.wf_cog hu) _) _

theorem State.keeps_readResult (h : s.wf = true) (f : SingleZC) (left : MathUnit → Nat) (value : MathUnit → Word) :
    (s.readResult f left value).keeps fun u => u.wf = true :=
  State.keeps_withOperands h _ _ _ fun _ _ hu => State.keeps_waitFor hu _ _ <| State.keeps_putResult hu _ _ _ _ _

theorem State.keeps_afterMac (h : s.wf = true) (o : Operands) {go : Out} (hg : go.keeps fun u => u.wf = true) :
    (s.afterMac o go).keeps fun u => u.wf = true := by
  unfold State.afterMac
  split_ifs
  · exact hg
  · exact State.keeps_hold h o _

theorem State.keeps_setSer (h : s.wf = true) (f : DualL) (ser : Cog → Ser) {put : Ser → Cog → Cog}
    (hp : ∀ u c, c.wf = true → (put u c).wf = true) : (s.setSer f ser put).keeps fun u => u.wf = true := by
  refine State.keeps_withOperands h _ _ _ fun _ _ hu => ?_
  dsimp only
  split_ifs
  · exact State.keeps_refused _
  · exact State.keeps_finish hu (hp _ _ (State.wf_cog hu)) _

theorem State.keeps_serOut (h : s.wf = true) (f : SingleCL) (ser : Cog → Ser) {put : Ser → Cog → Cog}
    (hp : ∀ u c, c.wf = true → (put u c).wf = true) : (s.serOut f ser put).keeps fun u => u.wf = true := by
  refine State.keeps_withOperands h _ _ _ fun _ u hu => ?_
  dsimp only
  have hc (b : Bool) (x : Ser) : (if b then put x u.cog else u.cog).wf = true := by
    split_ifs
    · exact hp _ _ (State.wf_cog hu)
    · exact State.wf_cog hu
  split_ifs with hw hr
  · exact State.keeps_finish hu (Cog.wf_setFlags (hp _ _ (State.wf_cog hu)) _ _ _ _) _
  · exact State.keeps_finish hu (Cog.wf_setFlags (State.wf_cog hu) _ _ _ _) _
  · exact State.keeps_waitFor hu _ _ <| State.keeps_finish hu (hp _ _ (State.wf_cog hu)) _
  · exact State.keeps_waitFor hu _ _ <| State.keeps_finish hu (State.wf_cog hu) _

theorem State.keeps_serIn (h : s.wf = true) (f : SingleZC) (ser : Cog → Ser) {put : Ser → Cog → Cog}
    (hp : ∀ u c, c.wf = true → (put u c).wf = true) : (s.serIn f ser put).keeps fun u => u.wf = true := by
  refine State.keeps_withOperands h _ _ _ fun _ u hu => ?_
  have hc (x : Ser) (z c : Bool) : ((put x u.cog).setFlags f.wz f.wc z c).wf = true :=
    Cog.wf_setFlags (hp _ _ (State.wf_cog hu)) _ _ _ _
  dsimp only
  by_cases hw : f.wc = true
  · rw [if_pos hw]
    exact State.keeps_finishD hu (hc _ _ _) _ _ _
  · rw [if_neg hw]
    exact State.keeps_waitFor hu _ _ <| State.keeps_finishD hu (hc _ _ _) _ _ _

end Sys2Proof.Machine
end

