-- ==== Sys2Proof/Tests/Slice0.lean ====
section
/-!
SUPPORT. Tests. Ill-formed terms are refused; words written out from the spec's encodings decode to their instructions;
one step gives what the spec's own vectors (95_test_vectors.md and the vector tables at the ends of 46 to 49) say; and for
every statement with hypotheses a state and operands that meet them (`test_witness_<statement>`).
-/

namespace Sys2Proof.Tests

set_option maxRecDepth 10000
-- one declaration after the other: many small kernel evaluations at once need more threads than the host allows
set_option Elab.async false

open Sys2Proof Sys2Proof.Machine

/-! ### Small states -/

def inCog (f : Cog → Cog) (s : State) : State := s.setCog (f s.cog)
def inTask (f : Task → Task) : State → State := inCog fun c => c.setTask (f c.task)
def inHub (f : Hub → Hub) (s : State) : State := { s with hub := f s.hub }
def inMath (f : MathUnit → MathUnit) : State → State := inCog fun c => { c with math := f c.math }
def inPorts (f : Ports → Ports) : State → State := inCog fun c => { c with ports := f c.ports }
def inWide (f : Wide → Wide) : State → State := inCog fun c => { c with wide := f c.wide }

/-- The reset state with values in registers. -/
def regs (l : List (Nat × Nat)) : State :=
  l.foldl (fun s e => inCog (·.putPlain (BitVec.ofNat 9 e.1) (BitVec.ofNat 32 e.2)) s) State.reset
def flags (z c : Bool) : State → State := inTask fun k => { k with z := z, c := c }
def atPc (p : Nat) : State → State := inTask fun k => { k with pc := BitVec.ofNat 16 p }
def ind (p b t : Nat) : IndReg := ⟨BitVec.ofNat 9 p, BitVec.ofNat 9 b, BitVec.ofNat 9 t⟩
def withInda (p b t : Nat) : State → State := inCog fun c => { c with inda := ind p b t }
def withIndb (p b t : Nat) : State → State := inCog fun c => { c with indb := ind p b t }
def withPtra (p : Nat) : State → State := inCog fun c => { c with ptra := BitVec.ofNat 18 p }
def withPtrb (p : Nat) : State → State := inCog fun c => { c with ptrb := BitVec.ofNat 18 p }
def withAux (a v : Nat) : State → State :=
  inCog fun c => { c with aux := auxWrite c.aux (BitVec.ofNat 8 a) (BitVec.ofNat 32 v) }
def withCnt (v : Nat) : State → State :=
  inHub fun h => { h with cnt := BitVec.ofNat 64 v, cntPrev := BitVec.ofNat 64 (v - 1) }
/-- Instructions on their way to stage 4. -/
def queued (q : List Slot) : State → State := inCog fun c => { c with pipe := { c.pipe with queue := q } }
def hubLong (a v : Nat) : State → State := inHub fun h => { h with mem := h.mem.setLong a (BitVec.ofNat 32 v) }
/-- Other cogs run too, each as the current one. -/
def alsoRunning (ks : List (Fin 8)) (s : State) : State := ks.foldl (fun u k => { u with cogs := u.cogs.set k s.cog }) s

/-! ### What a test reads -/

def reg (a : Nat) (s : State) : Nat := (s.readReg s.cog (BitVec.ofNat 9 a)).toNat
def ram (a : Nat) (s : State) : Nat := (s.cog.ram.read zeroes a).toNat
def hubAt (a : Nat) (s : State) : Nat := (s.hub.mem.long a).toNat
def auxAt (a : Nat) (s : State) : Nat := (auxRead s.cog.aux (BitVec.ofNat 8 a)).toNat
def ia (s : State) : Nat × Nat × Nat := (s.cog.inda.ptr.toNat, s.cog.inda.bot.toNat, s.cog.inda.top.toNat)
def ib (s : State) : Nat × Nat × Nat := (s.cog.indb.ptr.toNat, s.cog.indb.bot.toNat, s.cog.indb.top.toNat)

def isNext (o : Out) : Bool := match o with | .next _ => true | _ => false
def stateAfter (o : Out) : State := match o with | .next t => t | _ => State.reset
theorem next_stateAfter (o : Out) (h : isNext o = true) : o = .next (stateAfter o) :=
  by cases o <;> simp_all [isNext, stateAfter]

/-- The outcome goes on to a state with a property. -/
def goesTo (o : Out) (p : State → Bool) : Bool := match o with | .next t => p t | _ => false
def refusedAs (o : Out) (r : Refusal) : Bool := match o with | .refused x => x == r | _ => false
def faultsAs (o : Out) (e : Fault) : Bool := match o with | .fault x => x == e | _ => false
/-- Executing an instruction word goes on to a state with a property. -/
noncomputable def runs (w : Nat) (s : State) (p : State → Bool) : Bool := goesTo (s.executeWord (BitVec.ofNat 32 w)) p

/-! ### Well-formedness: one ill-formed term for each check -/

theorem test_wellFormed_refuses :
    ∀ i ∈ ([.rdbyte ⟨false, false, false, 0, 0, 0⟩, .wrlong ⟨true, true, 0xF, 5, 0x0C1⟩, .wrlong ⟨true, true, 0xF, 5, 0x1C1⟩,
            .rdlong ⟨false, false, true, 0xF, 5, 0x0BF⟩, .rdlong ⟨false, false, true, 0xF, 5, 0x1BF⟩,
            .wraux ⟨true, true, 0xF, 5, 0x161⟩, .wrauxr ⟨true, true, 0xF, 5, 0x1E1⟩,
            .rdaux ⟨false, false, true, 0xF, 5, 0x15F⟩, .rdauxr ⟨false, false, true, 0xF, 5, 0x1DF⟩,
            .jmpsw ⟨true, true, false, 0x3, 0x1F3, 0x1F3⟩, .jmpswd ⟨true, true, false, 0x3, 0x1F3, 0x1F3⟩,
            .mergen ⟨false, 0xF, 1, 2⟩, .splitn ⟨false, 0xF, 1, 2⟩, .waitvidImm 0xE00 ⟨false, 0xF, 2⟩,
            .cfgpins 3 ⟨false, false, 0xF, 1, 2⟩, .repd 4 ⟨false, 0xF, 0x1FF⟩] : List Instr), i.wellFormed = false := by
  decide +kernel

theorem test_wellFormed_accepts :
    ∀ i ∈ ([.rdbyte ⟨false, false, false, 1, 0, 0⟩, .wrlong ⟨true, true, 0xF, 5, 0x0C0⟩, .wrlong ⟨true, false, 0xF, 5,
          0x0C1⟩,
            .rdlong ⟨false, false, true, 0xF, 5, 0x0C1⟩, .wraux ⟨true, true, 0xF, 5, 0x160⟩, .rdaux ⟨false, false,
          false, 0xF, 5, 0x15F⟩,
            .jmpsw ⟨true, true, false, 0x3, 0x1F3, 0x1F2⟩, .waitvidImm 0xDFF ⟨false, 0xF, 2⟩, .cfgpins 2 ⟨false, false,
          0xF, 1, 2⟩,
            .repd 4 ⟨true, 0xF, 0x1FF⟩, .nop, .switch] : List Instr), i.wellFormed = true := by decide +kernel

/-! ### Decoding -/

/-- The single-operand words of R195 (a) and the IND words of R195 (b) are of no row; their neighbours are. -/
theorem test_decode_unassigned :
    (∀ n ∈ ([0x031, 0x03F, 0x0DD, 0x0F3, 0x11C, 0x1FF] : List (BitVec 9)),
        decode (0b1111111_00_0_1111_000000000#23 ++ n) = .error .unassignedSingle)
      ∧ (∀ n ∈ ([0x030, 0x040, 0x0DC, 0x0F4, 0x11B] : List (BitVec 9)),
        decode (0b1111111_00_0_1111_000000000#23 ++ n) ≠ .error .unassignedSingle)
      ∧ ∀ c ∈ ([0b0000, 0b0110, 0b0111, 0b1001, 0b1101] : List (BitVec 4)),
        decode (0b1111110_000#10 ++ (c ++ 0x00205#18)) = .error .unassignedInd := by decide +kernel

/-- Words written out from the encodings of R244 to R268. -/
theorem test_decode_hub_memory_1 :
    decode 0b0000000_10_0_0101_011001010_100111101#32 = .ok (.rdbyte ⟨true, false, false, 0x5, 0xCA, 0x13D⟩)
      ∧ decode 0b0000001_01_0_1101_010101111_100100000#32 = .ok (.rdbytec ⟨false, true, false, 0xD, 0xAF, 0x120⟩)
      ∧ decode 0b0000010_11_0_0010_011010100_101000011#32 = .ok (.rdword ⟨true, true, false, 0x2, 0xD4, 0x143⟩)
      ∧ decode 0b0000011_00_1_1010_010111001_100100110#32 = .ok (.rdwordc ⟨false, false, true, 0xA, 0xB9, 0x126⟩)
      ∧ decode 0b0000100_10_1_0101_011011110_101001001#32 = .ok (.rdlong ⟨true, false, true, 0x5, 0xDE, 0x149⟩)
      ∧ decode 0b0000101_01_1_1101_011000011_100101100#32 = .ok (.rdlongc ⟨false, true, true, 0xD, 0xC3, 0x12C⟩)
      ∧ decode 0b1101000_00_1_0010_011000000_100110111#32 = .ok (.wrbyte ⟨false, true, 0x2, 0xC0, 0x137⟩)
      ∧ decode 0b1101000_10_0_1010_010100101_101011010#32 = .ok (.wrword ⟨false, false, 0xA, 0xA5, 0x15A⟩)
      ∧ decode 0b1101001_01_0_0101_011001010_100111101#32 = .ok (.wrlong ⟨true, false, 0x5, 0xCA, 0x13D⟩)
      ∧ decode 0b1111111_10_0_0101_010101010_000001010#32 = .ok (.getptra ⟨true, false, 0x5, 0xAA⟩)
      ∧ decode 0b1111111_01_0_1101_011001111_000001011#32 = .ok (.getptrb ⟨false, true, 0xD, 0xCF⟩)
      ∧ decode 0b1111111_00_0_0010_011010000_010000101#32 = .ok (.rdwidec ⟨false, 0x2, 0xD0⟩)
      ∧ decode 0b1111111_00_0_1010_010110101_010000110#32 = .ok (.rdwide ⟨false, 0xA, 0xB5⟩)
      ∧ decode 0b1111111_00_1_0101_011011010_010000111#32 = .ok (.wrwide ⟨true, 0x5, 0xDA⟩)
      ∧ decode 0b1111111_00_0_1101_011001111_010011000#32 = .ok (.setptra ⟨false, 0xD, 0xCF⟩)
      ∧ decode 0b1111111_00_1_0010_010110100_010011001#32 = .ok (.setptrb ⟨true, 0x2, 0xB4⟩) := by decide +kernel

/-- Words written out from the encodings of R269 to R262. -/
theorem test_decode_hub_memory_2 :
    decode 0b1111111_00_1_1010_011011001_010011010#32 = .ok (.addptra ⟨true, 0xA, 0xD9⟩)
      ∧ decode 0b1111111_00_1_0101_010111110_010011011#32 = .ok (.addptrb ⟨true, 0x5, 0xBE⟩)
      ∧ decode 0b1111111_00_0_1101_011100011_010011100#32 = .ok (.subptra ⟨false, 0xD, 0xE3⟩)
      ∧ decode 0b1111111_00_0_0010_011001000_010011101#32 = .ok (.subptrb ⟨false, 0x2, 0xC8⟩)
      ∧ decode 0b1111111_00_0_1010_010101101_010011110#32 = .ok (.setwide ⟨false, 0xA, 0xAD⟩)
      ∧ decode 0b1111111_00_1_0101_011010010_010011111#32 = .ok (.setwidz ⟨true, 0x5, 0xD2⟩)
      ∧ decode 0b1111111_00_1_0010_111111111_100011000#32 = .ok (.dcachex ⟨0x2⟩) := by decide +kernel

/-- Words written out from the encodings of R341 to R360. -/
theorem test_decode_indirect_aux_1 :
    decode 0b0000110_11_1_0010_010101000_101001111#32 = .ok (.rdaux ⟨true, true, true, 0x2, 0xA8, 0x14F⟩)
      ∧ decode 0b0000111_00_0_1010_011001101_100110010#32 = .ok (.rdauxr ⟨false, false, false, 0xA, 0xCD, 0x132⟩)
      ∧ decode 0b1101010_01_0_0010_011010100_101000011#32 = .ok (.wraux ⟨true, false, 0x2, 0xD4, 0x143⟩)
      ∧ decode 0b1101010_10_1_1010_010111001_100100110#32 = .ok (.wrauxr ⟨false, true, 0xA, 0xB9, 0x126⟩)
      ∧ decode 0b1111110_00_0_0001_011010101_100101010#32 = .ok (.fixinda ⟨0xD5, 0x12A⟩)
      ∧ decode 0b1111110_00_0_0100_010111010_101001101#32 = .ok (.fixindb ⟨0xBA, 0x14D⟩)
      ∧ decode 0b1111110_00_0_0101_011011111_100110000#32 = .ok (.fixinds ⟨0xDF, 0x130⟩)
      ∧ decode 0b1111110_00_0_0010_011000100_101010011#32 = .ok (.setindaAbs ⟨0xC4, 0x153⟩)
      ∧ decode 0b1111110_00_0_0011_010101001_100110110#32 = .ok (.setindaRel ⟨0xA9, 0x136⟩)
      ∧ decode 0b1111110_00_0_1000_011001110_101011001#32 = .ok (.setindbAbs ⟨0xCE, 0x159⟩)
      ∧ decode 0b1111110_00_0_1100_010110011_100111100#32 = .ok (.setindbRel ⟨0xB3, 0x13C⟩)
      ∧ decode 0b1111110_00_0_1010_011011000_100011111#32 = .ok (.setindsAbsAbs ⟨0xD8, 0x11F⟩)
      ∧ decode 0b1111110_00_0_1011_010111101_101000010#32 = .ok (.setindsAbsRel ⟨0xBD, 0x142⟩)
      ∧ decode 0b1111110_00_0_1110_011100010_100100101#32 = .ok (.setindsRelAbs ⟨0xE2, 0x125⟩)
      ∧ decode 0b1111110_00_0_1111_011000111_101001000#32 = .ok (.setindsRelRel ⟨0xC7, 0x148⟩)
      ∧ decode 0b1111111_11_0_0010_010110100_000001100#32 = .ok (.getptrx ⟨true, true, 0x2, 0xB4⟩) := by decide +kernel

/-- Words written out from the encodings of R361 to R345. -/
theorem test_decode_indirect_aux_2 :
    decode 0b1111111_00_0_1010_011011001_000001101#32 = .ok (.getptry ⟨false, false, 0xA, 0xD9⟩)
      ∧ decode 0b1111111_00_1_1101_010110111_010100000#32 = .ok (.setptrx ⟨true, 0xD, 0xB7⟩)
      ∧ decode 0b1111111_00_1_0010_011011100_010100001#32 = .ok (.setptry ⟨true, 0x2, 0xDC⟩)
      ∧ decode 0b1111111_00_0_1010_011000001_010100010#32 = .ok (.addptrx ⟨false, 0xA, 0xC1⟩)
      ∧ decode 0b1111111_00_0_0101_010100110_010100011#32 = .ok (.addptry ⟨false, 0x5, 0xA6⟩)
      ∧ decode 0b1111111_00_0_1101_011001011_010100100#32 = .ok (.subptrx ⟨false, 0xD, 0xCB⟩)
      ∧ decode 0b1111111_00_1_0010_010110000_010100101#32 = .ok (.subptry ⟨true, 0x2, 0xB0⟩)
      ∧ decode 0b1111111_11_1_0010_111111111_100010100#32 = .ok (.chkptrx ⟨true, true, 0x2⟩)
      ∧ decode 0b1111111_00_1_1010_111111111_100010101#32 = .ok (.chkptry ⟨false, false, 0xA⟩)
      ∧ decode 0b1101010_01_1_1101_011010011_101100001#32 = .ok (.pushx ⟨true, 0xD, 0xD3⟩)
      ∧ decode 0b1101010_11_1_0010_010111000_111100001#32 = .ok (.pushy ⟨true, 0x2, 0xB8⟩)
      ∧ decode 0b0000110_00_1_1010_011011101_101011111#32 = .ok (.popx ⟨false, false, 0xA, 0xDD⟩)
      ∧ decode 0b0000111_10_1_0101_011000010_111011111#32 = .ok (.popy ⟨true, false, 0x5, 0xC2⟩) := by decide +kernel

/-- Words written out from the encodings of R557 to R572. -/
theorem test_decode_alu_1 :
    decode 0b0001000_10_0_0101_010110010_101010101#32 = .ok (.isob ⟨true, false, false, 0x5, 0xB2, 0x155⟩)
      ∧ decode 0b0001001_01_0_1101_011010111_100111000#32 = .ok (.notb ⟨false, true, false, 0xD, 0xD7, 0x138⟩)
      ∧ decode 0b0001010_11_0_0010_010111100_100011011#32 = .ok (.clrb ⟨true, true, false, 0x2, 0xBC, 0x11B⟩)
      ∧ decode 0b0001011_00_1_1010_011100001_100111110#32 = .ok (.setb ⟨false, false, true, 0xA, 0xE1, 0x13E⟩)
      ∧ decode 0b0001100_10_1_0101_011000110_100100001#32 = .ok (.setbc ⟨true, false, true, 0x5, 0xC6, 0x121⟩)
      ∧ decode 0b0001101_01_1_1101_010101011_101000100#32 = .ok (.setbnc ⟨false, true, true, 0xD, 0xAB, 0x144⟩)
      ∧ decode 0b0001110_11_1_0010_011010000_100100111#32 = .ok (.setbz ⟨true, true, true, 0x2, 0xD0, 0x127⟩)
      ∧ decode 0b0001111_00_0_1010_010110101_101001010#32 = .ok (.setbnz ⟨false, false, false, 0xA, 0xB5, 0x14A⟩)
      ∧ decode 0b0010000_10_0_0101_011011010_100101101#32 = .ok (.andn ⟨true, false, false, 0x5, 0xDA, 0x12D⟩)
      ∧ decode 0b0010001_01_0_1101_010111111_101010000#32 = .ok (.and ⟨false, true, false, 0xD, 0xBF, 0x150⟩)
      ∧ decode 0b0010010_11_0_0010_011100100_100110011#32 = .ok (.or ⟨true, true, false, 0x2, 0xE4, 0x133⟩)
      ∧ decode 0b0010011_00_1_1010_011001001_101010110#32 = .ok (.xor ⟨false, false, true, 0xA, 0xC9, 0x156⟩)
      ∧ decode 0b0010100_10_1_0101_010101110_100111001#32 = .ok (.muxc ⟨true, false, true, 0x5, 0xAE, 0x139⟩)
      ∧ decode 0b0010101_01_1_1101_011010011_100011100#32 = .ok (.muxnc ⟨false, true, true, 0xD, 0xD3, 0x11C⟩)
      ∧ decode 0b0010110_11_1_0010_010111000_100111111#32 = .ok (.muxz ⟨true, true, true, 0x2, 0xB8, 0x13F⟩)
      ∧ decode 0b0010111_00_0_1010_011011101_100100010#32 = .ok (.muxnz ⟨false, false, false, 0xA, 0xDD, 0x122⟩) := by decide +kernel

/-- Words written out from the encodings of R573 to R588. -/
theorem test_decode_alu_2 :
    decode 0b0011000_10_0_0101_011000010_101000101#32 = .ok (.ror ⟨true, false, false, 0x5, 0xC2, 0x145⟩)
      ∧ decode 0b0011001_01_0_1101_010100111_100101000#32 = .ok (.rol ⟨false, true, false, 0xD, 0xA7, 0x128⟩)
      ∧ decode 0b0011010_11_0_0010_011001100_101001011#32 = .ok (.shr ⟨true, true, false, 0x2, 0xCC, 0x14B⟩)
      ∧ decode 0b0011011_00_1_1010_010110001_100101110#32 = .ok (.shl ⟨false, false, true, 0xA, 0xB1, 0x12E⟩)
      ∧ decode 0b0011100_10_1_0101_011010110_101010001#32 = .ok (.rcr ⟨true, false, true, 0x5, 0xD6, 0x151⟩)
      ∧ decode 0b0011101_01_1_1101_010111011_100110100#32 = .ok (.rcl ⟨false, true, true, 0xD, 0xBB, 0x134⟩)
      ∧ decode 0b0011110_11_1_0010_011100000_101010111#32 = .ok (.sar ⟨true, true, true, 0x2, 0xE0, 0x157⟩)
      ∧ decode 0b0011111_00_0_1010_011000101_100111010#32 = .ok (.rev ⟨false, false, false, 0xA, 0xC5, 0x13A⟩)
      ∧ decode 0b0100000_10_0_0101_010101010_100011101#32 = .ok (.mov ⟨true, false, false, 0x5, 0xAA, 0x11D⟩)
      ∧ decode 0b0100001_01_0_1101_011001111_101000000#32 = .ok (.not ⟨false, true, false, 0xD, 0xCF, 0x140⟩)
      ∧ decode 0b0100010_11_0_0010_010110100_100100011#32 = .ok (.abs ⟨true, true, false, 0x2, 0xB4, 0x123⟩)
      ∧ decode 0b0100011_00_1_1010_011011001_101000110#32 = .ok (.neg ⟨false, false, true, 0xA, 0xD9, 0x146⟩)
      ∧ decode 0b0100100_10_1_0101_010111110_100101001#32 = .ok (.negc ⟨true, false, true, 0x5, 0xBE, 0x129⟩)
      ∧ decode 0b0100101_01_1_1101_011100011_101001100#32 = .ok (.negnc ⟨false, true, true, 0xD, 0xE3, 0x14C⟩)
      ∧ decode 0b0100110_11_1_0010_011001000_100101111#32 = .ok (.negz ⟨true, true, true, 0x2, 0xC8, 0x12F⟩)
      ∧ decode 0b0100111_00_0_1010_010101101_101010010#32 = .ok (.negnz ⟨false, false, false, 0xA, 0xAD, 0x152⟩) := by decide +kernel

/-- Words written out from the encodings of R589 to R604. -/
theorem test_decode_alu_3 :
    decode 0b0101000_10_0_0101_011010010_100110101#32 = .ok (.add ⟨true, false, false, 0x5, 0xD2, 0x135⟩)
      ∧ decode 0b0101001_01_0_1101_010110111_101011000#32 = .ok (.sub ⟨false, true, false, 0xD, 0xB7, 0x158⟩)
      ∧ decode 0b0101010_11_0_0010_011011100_100111011#32 = .ok (.addx ⟨true, true, false, 0x2, 0xDC, 0x13B⟩)
      ∧ decode 0b0101011_00_1_1010_011000001_100011110#32 = .ok (.subx ⟨false, false, true, 0xA, 0xC1, 0x11E⟩)
      ∧ decode 0b0101100_10_1_0101_010100110_101000001#32 = .ok (.adds ⟨true, false, true, 0x5, 0xA6, 0x141⟩)
      ∧ decode 0b0101101_01_1_1101_011001011_100100100#32 = .ok (.subs ⟨false, true, true, 0xD, 0xCB, 0x124⟩)
      ∧ decode 0b0101110_11_1_0010_010110000_101000111#32 = .ok (.addsx ⟨true, true, true, 0x2, 0xB0, 0x147⟩)
      ∧ decode 0b0101111_00_0_1010_011010101_100101010#32 = .ok (.subsx ⟨false, false, false, 0xA, 0xD5, 0x12A⟩)
      ∧ decode 0b0110000_10_0_0101_010111010_101001101#32 = .ok (.sumc ⟨true, false, false, 0x5, 0xBA, 0x14D⟩)
      ∧ decode 0b0110001_01_0_1101_011011111_100110000#32 = .ok (.sumnc ⟨false, true, false, 0xD, 0xDF, 0x130⟩)
      ∧ decode 0b0110010_11_0_0010_011000100_101010011#32 = .ok (.sumz ⟨true, true, false, 0x2, 0xC4, 0x153⟩)
      ∧ decode 0b0110011_00_1_1010_010101001_100110110#32 = .ok (.sumnz ⟨false, false, true, 0xA, 0xA9, 0x136⟩)
      ∧ decode 0b0110100_10_1_0101_011001110_101011001#32 = .ok (.min ⟨true, false, true, 0x5, 0xCE, 0x159⟩)
      ∧ decode 0b0110101_01_1_1101_010110011_100111100#32 = .ok (.max ⟨false, true, true, 0xD, 0xB3, 0x13C⟩)
      ∧ decode 0b0110110_11_1_0010_011011000_100011111#32 = .ok (.mins ⟨true, true, true, 0x2, 0xD8, 0x11F⟩)
      ∧ decode 0b0110111_00_0_1010_010111101_101000010#32 = .ok (.maxs ⟨false, false, false, 0xA, 0xBD, 0x142⟩) := by decide +kernel

/-- Words written out from the encodings of R605 to R620. -/
theorem test_decode_alu_4 :
    decode 0b0111000_10_0_0101_011100010_100100101#32 = .ok (.addabs ⟨true, false, false, 0x5, 0xE2, 0x125⟩)
      ∧ decode 0b0111001_01_0_1101_011000111_101001000#32 = .ok (.subabs ⟨false, true, false, 0xD, 0xC7, 0x148⟩)
      ∧ decode 0b0111010_11_0_0010_010101100_100101011#32 = .ok (.incmod ⟨true, true, false, 0x2, 0xAC, 0x12B⟩)
      ∧ decode 0b0111011_00_1_1010_011010001_101001110#32 = .ok (.decmod ⟨false, false, true, 0xA, 0xD1, 0x14E⟩)
      ∧ decode 0b0111100_10_1_0101_010110110_100110001#32 = .ok (.cmpsub ⟨true, false, true, 0x5, 0xB6, 0x131⟩)
      ∧ decode 0b0111101_01_1_1101_011011011_101010100#32 = .ok (.subr ⟨false, true, true, 0xD, 0xDB, 0x154⟩)
      ∧ decode 0b0111110_11_1_0010_011000000_100110111#32 = .ok (.mul ⟨true, true, true, 0x2, 0xC0, 0x137⟩)
      ∧ decode 0b0111111_00_0_1010_010100101_101011010#32 = .ok (.scl ⟨false, false, false, 0xA, 0xA5, 0x15A⟩)
      ∧ decode 0b1000000_10_0_0101_011001010_100111101#32 = .ok (.decod2 ⟨true, false, false, 0x5, 0xCA, 0x13D⟩)
      ∧ decode 0b1000001_01_0_1101_010101111_100100000#32 = .ok (.decod3 ⟨false, true, false, 0xD, 0xAF, 0x120⟩)
      ∧ decode 0b1000010_11_0_0010_011010100_101000011#32 = .ok (.decod4 ⟨true, true, false, 0x2, 0xD4, 0x143⟩)
      ∧ decode 0b1000011_00_1_1010_010111001_100100110#32 = .ok (.decod5 ⟨false, false, true, 0xA, 0xB9, 0x126⟩)
      ∧ decode 0b1000100_10_1_0101_011011110_101001001#32 = .ok (.encod ⟨true, true, 0x5, 0xDE, 0x149⟩)
      ∧ decode 0b1000100_01_1_1101_011000011_100101100#32 = .ok (.blmask ⟨false, true, 0xD, 0xC3, 0x12C⟩)
      ∧ decode 0b1000101_10_1_0010_010101000_101001111#32 = .ok (.onecnt ⟨true, true, 0x2, 0xA8, 0x14F⟩)
      ∧ decode 0b1000101_01_0_1010_011001101_100110010#32 = .ok (.zercnt ⟨false, false, 0xA, 0xCD, 0x132⟩) := by decide +kernel

/-- Words written out from the encodings of R621 to R636. -/
theorem test_decode_alu_5 :
    decode 0b1000110_00_0_0101_010110010_101010101#32 = .ok (.incpat ⟨false, false, 0x5, 0xB2, 0x155⟩)
      ∧ decode 0b1000110_11_0_1101_011010111_100111000#32 = .ok (.decpat ⟨true, false, 0xD, 0xD7, 0x138⟩)
      ∧ decode 0b1000111_00_0_0010_010111100_100011011#32 = .ok (.splitb ⟨false, 0x2, 0xBC, 0x11B⟩)
      ∧ decode 0b1000111_01_1_1010_011100001_100111110#32 = .ok (.mergeb ⟨true, 0xA, 0xE1, 0x13E⟩)
      ∧ decode 0b1000111_10_1_0101_011000110_100100001#32 = .ok (.splitw ⟨true, 0x5, 0xC6, 0x121⟩)
      ∧ decode 0b1000111_11_1_1101_010101011_101000100#32 = .ok (.mergew ⟨true, 0xD, 0xAB, 0x144⟩)
      ∧ decode 0b1001011_00_1_0010_011010000_100100111#32 = .ok (.getnib 0x6 ⟨true, 0x2, 0xD0, 0x127⟩)
      ∧ decode 0b1001010_11_0_1010_010110101_101001010#32 = .ok (.setnib 0x5 ⟨false, 0xA, 0xB5, 0x14A⟩)
      ∧ decode 0b1001100_00_0_0101_011011010_100101101#32 = .ok (.getword 0x0 ⟨false, 0x5, 0xDA, 0x12D⟩)
      ∧ decode 0b1001100_11_0_1101_010111111_101010000#32 = .ok (.setword 0x1 ⟨false, 0xD, 0xBF, 0x150⟩)
      ∧ decode 0b1001101_00_0_0010_011100100_100110011#32 = .ok (.setwrds ⟨false, 0x2, 0xE4, 0x133⟩)
      ∧ decode 0b1001101_01_1_1010_011001001_101010110#32 = .ok (.rolnib ⟨true, 0xA, 0xC9, 0x156⟩)
      ∧ decode 0b1001101_10_1_0101_010101110_100111001#32 = .ok (.rolbyte ⟨true, 0x5, 0xAE, 0x139⟩)
      ∧ decode 0b1001101_11_1_1101_011010011_100011100#32 = .ok (.rolword ⟨true, 0xD, 0xD3, 0x11C⟩)
      ∧ decode 0b1001110_00_1_0010_010111000_100111111#32 = .ok (.sets ⟨true, 0x2, 0xB8, 0x13F⟩)
      ∧ decode 0b1001110_01_0_1010_011011101_100100010#32 = .ok (.setd ⟨false, 0xA, 0xDD, 0x122⟩) := by decide +kernel

/-- Words written out from the encodings of R637 to R652. -/
theorem test_decode_alu_6 :
    decode 0b1001110_10_0_0101_011000010_101000101#32 = .ok (.setx ⟨false, 0x5, 0xC2, 0x145⟩)
      ∧ decode 0b1001110_11_0_1101_010100111_100101000#32 = .ok (.seti ⟨false, 0xD, 0xA7, 0x128⟩)
      ∧ decode 0b1010001_10_1_1101_010111011_100110100#32 = .ok (.getbyte 0x3 ⟨true, 0xD, 0xBB, 0x134⟩)
      ∧ decode 0b1010001_01_1_0010_011100000_101010111#32 = .ok (.setbyte 0x2 ⟨true, 0x2, 0xE0, 0x157⟩)
      ∧ decode 0b1010010_00_0_1010_011000101_100111010#32 = .ok (.setbyts ⟨false, 0xA, 0xC5, 0x13A⟩)
      ∧ decode 0b1010010_01_0_0101_010101010_100011101#32 = .ok (.movbyts ⟨false, 0x5, 0xAA, 0x11D⟩)
      ∧ decode 0b1010010_10_0_1101_011001111_101000000#32 = .ok (.packrgb ⟨false, 0xD, 0xCF, 0x140⟩)
      ∧ decode 0b1010010_11_0_0010_010110100_100100011#32 = .ok (.unpkrgb ⟨false, 0x2, 0xB4, 0x123⟩)
      ∧ decode 0b1011000_01_0_1101_011011111_100110000#32 = .ok (.testb ⟨false, true, false, 0xD, 0xDF, 0x130⟩)
      ∧ decode 0b1011001_11_0_0010_011000100_101010011#32 = .ok (.testn ⟨true, true, false, 0x2, 0xC4, 0x153⟩)
      ∧ decode 0b1011010_00_1_1010_010101001_100110110#32 = .ok (.test ⟨false, false, true, 0xA, 0xA9, 0x136⟩)
      ∧ decode 0b1011011_10_1_0101_011001110_101011001#32 = .ok (.cmp ⟨true, false, true, 0x5, 0xCE, 0x159⟩)
      ∧ decode 0b1011100_01_1_1101_010110011_100111100#32 = .ok (.cmpx ⟨false, true, true, 0xD, 0xB3, 0x13C⟩)
      ∧ decode 0b1011101_11_1_0010_011011000_100011111#32 = .ok (.cmps ⟨true, true, true, 0x2, 0xD8, 0x11F⟩)
      ∧ decode 0b1011110_00_0_1010_010111101_101000010#32 = .ok (.cmpsx ⟨false, false, false, 0xA, 0xBD, 0x142⟩)
      ∧ decode 0b1011111_10_0_0101_011100010_100100101#32 = .ok (.cmpr ⟨true, false, false, 0x5, 0xE2, 0x125⟩) := by decide +kernel

/-- Words written out from the encodings of R653 to R665. -/
theorem test_decode_alu_7 :
    decode 0b1111111_01_0_1101_010100111_000000011#32 = .ok (.getlfsr ⟨false, true, 0xD, 0xA7⟩)
      ∧ decode 0b1111111_11_0_0010_010101100_000100100#32 = .ok (.binbcd ⟨true, true, 0x2, 0xAC⟩)
      ∧ decode 0b1111111_00_0_1010_011010001_000100101#32 = .ok (.bcdbin ⟨false, false, 0xA, 0xD1⟩)
      ∧ decode 0b1111111_10_0_0101_010110110_000100110#32 = .ok (.bingry ⟨true, false, 0x5, 0xB6⟩)
      ∧ decode 0b1111111_01_0_1101_011011011_000100111#32 = .ok (.grybin ⟨false, true, 0xD, 0xDB⟩)
      ∧ decode 0b1111111_11_0_0010_011000000_000101000#32 = .ok (.eswap4 ⟨true, true, 0x2, 0xC0⟩)
      ∧ decode 0b1111111_00_0_1010_010100101_000101001#32 = .ok (.eswap8 ⟨false, false, 0xA, 0xA5⟩)
      ∧ decode 0b1111111_10_0_0101_011001010_000101010#32 = .ok (.seussf ⟨true, false, 0x5, 0xCA⟩)
      ∧ decode 0b1111111_01_0_1101_010101111_000101011#32 = .ok (.seussr ⟨false, true, 0xD, 0xAF⟩)
      ∧ decode 0b1111111_11_0_0010_011010100_000101100#32 = .ok (.incd ⟨true, true, 0x2, 0xD4⟩)
      ∧ decode 0b1111111_00_0_1010_010111001_000101101#32 = .ok (.decd ⟨false, false, 0xA, 0xB9⟩)
      ∧ decode 0b1111111_10_0_0101_011011110_000101110#32 = .ok (.incds ⟨true, false, 0x5, 0xDE⟩)
      ∧ decode 0b1111111_01_0_1101_011000011_000101111#32 = .ok (.decds ⟨false, true, 0xD, 0xC3⟩) := by decide +kernel

/-- Words written out from the encodings of R291 to R304. -/
theorem test_decode_hub_control :
    decode 0b1001111_01_0_0010_011001100_101001011#32 = .ok (.cognew ⟨true, false, 0x2, 0xCC, 0x14B⟩)
      ∧ decode 0b1100001_10_0_1101_011000111_101001000#32 = .ok (.coginit 0x3 ⟨false, 0xD, 0xC7, 0x148⟩)
      ∧ decode 0b1111111_11_0_0010_010111000_000000000#32 = .ok (.cogid ⟨true, true, 0x2, 0xB8⟩)
      ∧ decode 0b1111111_10_0_0101_011000010_000000010#32 = .ok (.locknew ⟨true, false, 0x5, 0xC2⟩)
      ∧ decode 0b1111111_00_0_1101_011010111_010000000#32 = .ok (.clkset ⟨false, 0xD, 0xD7⟩)
      ∧ decode 0b1111111_00_1_0010_010111100_010000001#32 = .ok (.cogstop ⟨true, 0x2, 0xBC⟩)
      ∧ decode 0b1111111_00_1_1010_011100001_010000010#32 = .ok (.lockset ⟨false, true, 0xA, 0xE1⟩)
      ∧ decode 0b1111111_00_1_0101_011000110_010000011#32 = .ok (.lockclr ⟨false, true, 0x5, 0xC6⟩)
      ∧ decode 0b1111111_00_0_1101_010101011_010000100#32 = .ok (.lockret ⟨false, 0xD, 0xAB⟩) := by decide +kernel

/-- Words written out from the encodings of R418 to R424. -/
theorem test_decode_tasks_1 :
    decode 0b1001111_10_1_1010_010110001_100101110#32 = .ok (.waitcnt ⟨true, 0xA, 0xB1, 0x12E⟩)
      ∧ decode 0b1001111_11_1_0101_011010110_101010001#32 = .ok (.waitcntWc ⟨true, 0x5, 0xD6, 0x151⟩)
      ∧ decode 0b1100100_00_1_0101_010110110_100110001#32 = .ok (.waitpeq 0x0 ⟨false, true, 0x5, 0xB6, 0x131⟩)
      ∧ decode 0b1100111_11_1_1101_011011011_101010100#32 = .ok (.waitpne 0x3 ⟨true, true, 0xD, 0xDB, 0x154⟩)
      ∧ decode 0b1111001_11_0_1010_011000101_100111010#32 = .ok (.jmptask ⟨true, false, 0xA, 0xC5, 0x13A⟩)
      ∧ decode 0b1111101_01_1_1011_001001101_000101000#32 = .ok (.reps 0xB268 0x28)
      ∧ decode 0b1111111_00_0_1010_011011101_000000001#32 = .ok (.taskid ⟨false, false, 0xA, 0xDD⟩)
      ∧ decode 0b1111111_11_0_0010_011001100_000000100#32 = .ok (.getcnt ⟨true, true, 0x2, 0xCC⟩)
      ∧ decode 0b1111111_00_0_1010_010110001_000000101#32 = .ok (.getcntx ⟨false, false, 0xA, 0xB1⟩)
      ∧ decode 0b1111111_10_0_0101_011100010_000100010#32 = .ok (.subcnt ⟨true, false, 0x5, 0xE2⟩)
      ∧ decode 0b1111111_00_0_1010_010100110_001100101#32 = .ok (.repd 0x25 ⟨false, 0xA, 0xA6⟩)
      ∧ decode 0b1111111_00_0_0101_111111111_001101100#32 = .ok (.repdInf 0x2C ⟨0x5⟩)
      ∧ decode 0b1111111_01_0_1101_011010011_010001100#32 = .ok (.cmpcnt ⟨true, false, 0xD, 0xD3⟩)
      ∧ decode 0b1111111_01_1_0010_010111000_010001101#32 = .ok (.waitpx ⟨true, true, 0x2, 0xB8⟩)
      ∧ decode 0b1111111_00_1_1010_011011101_010001110#32 = .ok (.waitpr ⟨false, true, 0xA, 0xDD⟩)
      ∧ decode 0b1111111_00_1_0101_011000010_010001111#32 = .ok (.waitpf ⟨false, true, 0x5, 0xC2⟩) := by decide +kernel

/-- Words written out from the encodings of R394 to R417. -/
theorem test_decode_tasks_2 :
    decode 0b1111111_00_1_0101_011010110_010010011#32 = .ok (.settask ⟨true, 0x5, 0xD6⟩)
      ∧ decode 0b1111111_00_1_1010_011010101_010100110#32 = .ok (.passcnt ⟨true, 0xA, 0xD5⟩)
      ∧ decode 0b1111111_00_1_0101_010111010_010100111#32 = .ok (.wait ⟨true, 0x5, 0xBA⟩) := by decide +kernel

/-- Words written out from the encodings of R919 to R902. -/
theorem test_decode_video_1 :
    decode 0b1010011_00_1_1010_011011001_101000110#32 = .ok (.addpix ⟨true, 0xA, 0xD9, 0x146⟩)
      ∧ decode 0b1010011_01_1_0101_010111110_100101001#32 = .ok (.mulpix ⟨true, 0x5, 0xBE, 0x129⟩)
      ∧ decode 0b1010011_10_1_1101_011100011_101001100#32 = .ok (.blnpix ⟨true, 0xD, 0xE3, 0x14C⟩)
      ∧ decode 0b1010011_11_1_0010_011001000_100101111#32 = .ok (.mixpix ⟨true, 0x2, 0xC8, 0x12F⟩)
      ∧ decode 0b1100010_11_0_0010_100001010_100101011#32 = .ok (.waitvidImm 0xB0A ⟨false, 0x2, 0x12B⟩)
      ∧ decode 0b1100011_11_1_1010_011010001_101001110#32 = .ok (.waitvid ⟨true, 0xA, 0xD1, 0x14E⟩)
      ∧ decode 0b1111010_10_0_1101_011001111_101000000#32 = .ok (.setmix ⟨false, false, 0xD, 0xCF, 0x140⟩)
      ∧ decode 0b1111111_01_0_1101_011000111_000100011#32 = .ok (.getpix ⟨false, true, 0xD, 0xC7⟩)
      ∧ decode 0b1111111_00_0_1010_010110101_011000110#32 = .ok (.setvid ⟨false, 0xA, 0xB5⟩)
      ∧ decode 0b1111111_00_0_0101_011011010_011000111#32 = .ok (.setvidy ⟨false, 0x5, 0xDA⟩)
      ∧ decode 0b1111111_00_0_1010_011011101_011001110#32 = .ok (.setvidi ⟨false, 0xA, 0xDD⟩)
      ∧ decode 0b1111111_00_1_0101_011000010_011001111#32 = .ok (.setvidq ⟨true, 0x5, 0xC2⟩)
      ∧ decode 0b1111111_00_1_1101_010100111_011010000#32 = .ok (.setpix ⟨true, 0xD, 0xA7⟩)
      ∧ decode 0b1111111_00_1_0010_011001100_011010001#32 = .ok (.setpixz ⟨true, 0x2, 0xCC⟩)
      ∧ decode 0b1111111_00_0_1010_010110001_011010010#32 = .ok (.setpixu ⟨false, 0xA, 0xB1⟩)
      ∧ decode 0b1111111_00_0_0101_011010110_011010011#32 = .ok (.setpixv ⟨false, 0x5, 0xD6⟩) := by decide +kernel

/-- Words written out from the encodings of R902 to R904. -/
theorem test_decode_video_2 :
    decode 0b1111111_00_0_1101_010111011_011010100#32 = .ok (.setpixa ⟨false, 0xD, 0xBB⟩)
      ∧ decode 0b1111111_00_1_0010_011100000_011010101#32 = .ok (.setpixr ⟨true, 0x2, 0xE0⟩)
      ∧ decode 0b1111111_00_1_1010_011000101_011010110#32 = .ok (.setpixg ⟨true, 0xA, 0xC5⟩)
      ∧ decode 0b1111111_00_1_0101_010101010_011010111#32 = .ok (.setpixb ⟨true, 0x5, 0xAA⟩)
      ∧ decode 0b1111111_11_1_0010_111111111_100001100#32 = .ok (.polvid ⟨true, true, 0x2⟩)
      ∧ decode 0b1111111_00_1_0010_111111111_100010000#32 = .ok (.setpixw ⟨0x2⟩) := by decide +kernel

/-- Words written out from the encodings of R482 to R494. -/
theorem test_decode_branches_1 :
    decode 0b1010100_00_0_1010_010101101_101010010#32 = .ok (.jmpsw ⟨false, false, false, 0xA, 0xAD, 0x152⟩)
      ∧ decode 0b1010101_10_0_0101_011010010_100110101#32 = .ok (.jmpswd ⟨true, false, false, 0x5, 0xD2, 0x135⟩)
      ∧ decode 0b1010110_00_0_1101_010110111_101011000#32 = .ok (.ijz ⟨false, 0xD, 0xB7, 0x158⟩)
      ∧ decode 0b1010110_01_0_0010_011011100_100111011#32 = .ok (.ijzd ⟨false, 0x2, 0xDC, 0x13B⟩)
      ∧ decode 0b1010110_10_1_1010_011000001_100011110#32 = .ok (.ijnz ⟨true, 0xA, 0xC1, 0x11E⟩)
      ∧ decode 0b1010110_11_1_0101_010100110_101000001#32 = .ok (.ijnzd ⟨true, 0x5, 0xA6, 0x141⟩)
      ∧ decode 0b1010111_00_1_1101_011001011_100100100#32 = .ok (.djz ⟨true, 0xD, 0xCB, 0x124⟩)
      ∧ decode 0b1010111_01_1_0010_010110000_101000111#32 = .ok (.djzd ⟨true, 0x2, 0xB0, 0x147⟩)
      ∧ decode 0b1010111_10_0_1010_011010101_100101010#32 = .ok (.djnz ⟨false, 0xA, 0xD5, 0x12A⟩)
      ∧ decode 0b1010111_11_0_0101_010111010_101001101#32 = .ok (.djnzd ⟨false, 0x5, 0xBA, 0x14D⟩)
      ∧ decode 0b1110110_01_0_0010_011001100_101001011#32 = .ok (.jp ⟨true, false, 0x2, 0xCC, 0x14B⟩)
      ∧ decode 0b1110110_10_1_1010_010110001_100101110#32 = .ok (.jpd ⟨false, true, 0xA, 0xB1, 0x12E⟩)
      ∧ decode 0b1110111_00_1_0101_011010110_101010001#32 = .ok (.jnp ⟨false, true, 0x5, 0xD6, 0x151⟩)
      ∧ decode 0b1110111_10_1_1101_010111011_100110100#32 = .ok (.jnpd ⟨false, true, 0xD, 0xBB, 0x134⟩)
      ∧ decode 0b1111011_00_0_0010_010110100_100100011#32 = .ok (.jz ⟨false, 0x2, 0xB4, 0x123⟩)
      ∧ decode 0b1111011_01_1_1010_011011001_101000110#32 = .ok (.jzd ⟨true, 0xA, 0xD9, 0x146⟩) := by decide +kernel

/-- Words written out from the encodings of R495 to R460. -/
theorem test_decode_branches_2 :
    decode 0b1111011_10_1_0101_010111110_100101001#32 = .ok (.jnz ⟨true, 0x5, 0xBE, 0x129⟩)
      ∧ decode 0b1111011_11_1_1101_011100011_101001100#32 = .ok (.jnzd ⟨true, 0xD, 0xE3, 0x14C⟩)
      ∧ decode 0b1111100_00_1_0010_011001000_100101111#32 = .ok (.locbase ⟨true, 0x2, 0xC8, 0x12F⟩)
      ∧ decode 0b1111100_01_0_1010_010101101_101010010#32 = .ok (.locbyte ⟨false, 0xA, 0xAD, 0x152⟩)
      ∧ decode 0b1111100_10_0_0101_011010010_100110101#32 = .ok (.locword ⟨false, 0x5, 0xD2, 0x135⟩)
      ∧ decode 0b1111100_11_0_1101_010110111_101011000#32 = .ok (.loclong ⟨false, 0xD, 0xB7, 0x158⟩)
      ∧ decode 0b1111101_00_0_0010_011011100_100111011#32 = .ok (.jmplist ⟨false, 0x2, 0xDC, 0x13B⟩)
      ∧ decode 0b1111101_01_0_1010_011000001_100011110#32 = .ok (.locinst ⟨0xA, 0xC1, 0x11E⟩)
      ∧ decode 0b1111101_10_0_0001_011011001_001101111#32 = .ok (.augs 0x5B26F)
      ∧ decode 0b1111101_11_0_0001_011011001_001110110#32 = .ok (.augd 0x5B276)
      ∧ decode 0b1111110_00_1_0010_00_1011001011001010#32 = .ok (.locptraAbs ⟨0x2, 0xB2CA⟩)
      ∧ decode 0b1111110_00_1_1010_01_1011001011010001#32 = .ok (.locptraRel ⟨0xA, 0xB2D1⟩)
      ∧ decode 0b1111110_00_1_0101_10_1011001011011000#32 = .ok (.locptrbAbs ⟨0x5, 0xB2D8⟩)
      ∧ decode 0b1111110_00_1_1101_11_1011001011011111#32 = .ok (.locptrbRel ⟨0xD, 0xB2DF⟩)
      ∧ decode 0b1111110_01_0_0010_00_1011001011100110#32 = .ok (.jmpAbs ⟨0x2, 0xB2E6⟩)
      ∧ decode 0b1111110_01_0_1010_01_1011001011101101#32 = .ok (.jmpRel ⟨0xA, 0xB2ED⟩) := by decide +kernel

/-- Words written out from the encodings of R461 to R468. -/
theorem test_decode_branches_3 :
    decode 0b1111110_01_0_0101_10_1011001011110100#32 = .ok (.jmpdAbs ⟨0x5, 0xB2F4⟩)
      ∧ decode 0b1111110_01_0_1101_11_1011001011111011#32 = .ok (.jmpdRel ⟨0xD, 0xB2FB⟩)
      ∧ decode 0b1111110_01_1_0010_00_1011001100000010#32 = .ok (.callAbs ⟨0x2, 0xB302⟩)
      ∧ decode 0b1111110_01_1_1010_01_1011001100001001#32 = .ok (.callRel ⟨0xA, 0xB309⟩)
      ∧ decode 0b1111110_01_1_0101_10_1011001100010000#32 = .ok (.calldAbs ⟨0x5, 0xB310⟩)
      ∧ decode 0b1111110_01_1_1101_11_1011001100010111#32 = .ok (.calldRel ⟨0xD, 0xB317⟩)
      ∧ decode 0b1111110_10_0_0010_00_1011001100011110#32 = .ok (.callaAbs ⟨0x2, 0xB31E⟩)
      ∧ decode 0b1111110_10_0_1010_01_1011001100100101#32 = .ok (.callaRel ⟨0xA, 0xB325⟩)
      ∧ decode 0b1111110_10_0_0101_10_1011001100101100#32 = .ok (.calladAbs ⟨0x5, 0xB32C⟩)
      ∧ decode 0b1111110_10_0_1101_11_1011001100110011#32 = .ok (.calladRel ⟨0xD, 0xB333⟩)
      ∧ decode 0b1111110_10_1_0010_00_1011001100111010#32 = .ok (.callbAbs ⟨0x2, 0xB33A⟩)
      ∧ decode 0b1111110_10_1_1010_01_1011001101000001#32 = .ok (.callbRel ⟨0xA, 0xB341⟩)
      ∧ decode 0b1111110_10_1_0101_10_1011001101001000#32 = .ok (.callbdAbs ⟨0x5, 0xB348⟩)
      ∧ decode 0b1111110_10_1_1101_11_1011001101001111#32 = .ok (.callbdRel ⟨0xD, 0xB34F⟩)
      ∧ decode 0b1111110_11_0_0010_00_1011001101010110#32 = .ok (.callxAbs ⟨0x2, 0xB356⟩)
      ∧ decode 0b1111110_11_0_1010_01_1011001101011101#32 = .ok (.callxRel ⟨0xA, 0xB35D⟩) := by decide +kernel

/-- Words written out from the encodings of R469 to R464. -/
theorem test_decode_branches_4 :
    decode 0b1111110_11_0_0101_10_1011001101100100#32 = .ok (.callxdAbs ⟨0x5, 0xB364⟩)
      ∧ decode 0b1111110_11_0_1101_11_1011001101101011#32 = .ok (.callxdRel ⟨0xD, 0xB36B⟩)
      ∧ decode 0b1111110_11_1_0010_00_1011001101110010#32 = .ok (.callyAbs ⟨0x2, 0xB372⟩)
      ∧ decode 0b1111110_11_1_1010_01_1011001101111001#32 = .ok (.callyRel ⟨0xA, 0xB379⟩)
      ∧ decode 0b1111110_11_1_0101_10_1011001110000000#32 = .ok (.callydAbs ⟨0x5, 0xB380⟩)
      ∧ decode 0b1111110_11_1_1101_11_1011001110000111#32 = .ok (.callydRel ⟨0xD, 0xB387⟩)
      ∧ decode 0b1111111_11_0_0010_011011000_000100000#32 = .ok (.pushzc ⟨true, true, 0x2, 0xD8⟩)
      ∧ decode 0b1111111_00_0_1010_010111101_000100001#32 = .ok (.popzc ⟨false, false, 0xA, 0xBD⟩)
      ∧ decode 0b1111111_11_0_0010_010101000_000110000#32 = .ok (.pop ⟨true, true, 0x2, 0xA8⟩)
      ∧ decode 0b1111111_01_0_1101_010100111_010010000#32 = .ok (.setzc ⟨false, true, false, 0xD, 0xA7⟩)
      ∧ decode 0b1111111_00_1_1101_011100011_011011100#32 = .ok (.push ⟨true, 0xD, 0xE3⟩)
      ∧ decode 0b1111111_11_0_0010_011001000_011110100#32 = .ok (.jmpReg ⟨true, true, 0x2, 0xC8⟩)
      ∧ decode 0b1111111_00_0_1010_010101101_011110101#32 = .ok (.jmpdReg ⟨false, false, 0xA, 0xAD⟩)
      ∧ decode 0b1111111_10_0_0101_011010010_011110110#32 = .ok (.callReg ⟨true, false, 0x5, 0xD2⟩)
      ∧ decode 0b1111111_01_0_1101_010110111_011110111#32 = .ok (.calldReg ⟨false, true, 0xD, 0xB7⟩)
      ∧ decode 0b1111111_11_0_0010_011011100_011111000#32 = .ok (.callaReg ⟨true, true, 0x2, 0xDC⟩) := by decide +kernel

/-- Words written out from the encodings of R465 to R472. -/
theorem test_decode_branches_5 :
    decode 0b1111111_00_0_1010_011000001_011111001#32 = .ok (.calladReg ⟨false, false, 0xA, 0xC1⟩)
      ∧ decode 0b1111111_10_0_0101_010100110_011111010#32 = .ok (.callbReg ⟨true, false, 0x5, 0xA6⟩)
      ∧ decode 0b1111111_01_0_1101_011001011_011111011#32 = .ok (.callbdReg ⟨false, true, 0xD, 0xCB⟩)
      ∧ decode 0b1111111_11_0_0010_010110000_011111100#32 = .ok (.callxReg ⟨true, true, 0x2, 0xB0⟩)
      ∧ decode 0b1111111_00_0_1010_011010101_011111101#32 = .ok (.callxdReg ⟨false, false, 0xA, 0xD5⟩)
      ∧ decode 0b1111111_10_0_0101_010111010_011111110#32 = .ok (.callyReg ⟨true, false, 0x5, 0xBA⟩)
      ∧ decode 0b1111111_01_0_1101_011011111_011111111#32 = .ok (.callydReg ⟨false, true, 0xD, 0xDF⟩)
      ∧ decode 0b1111111_11_1_0010_111111111_100000000#32 = .ok (.reta ⟨true, true, 0x2⟩)
      ∧ decode 0b1111111_00_1_1010_111111111_100000001#32 = .ok (.retad ⟨false, false, 0xA⟩)
      ∧ decode 0b1111111_10_1_0101_111111111_100000010#32 = .ok (.retb ⟨true, false, 0x5⟩)
      ∧ decode 0b1111111_01_1_1101_111111111_100000011#32 = .ok (.retbd ⟨false, true, 0xD⟩)
      ∧ decode 0b1111111_11_1_0010_111111111_100000100#32 = .ok (.retx ⟨true, true, 0x2⟩)
      ∧ decode 0b1111111_00_1_1010_111111111_100000101#32 = .ok (.retxd ⟨false, false, 0xA⟩)
      ∧ decode 0b1111111_10_1_0101_111111111_100000110#32 = .ok (.rety ⟨true, false, 0x5⟩)
      ∧ decode 0b1111111_01_1_1101_111111111_100000111#32 = .ok (.retyd ⟨false, true, 0xD⟩)
      ∧ decode 0b1111111_11_1_0010_111111111_100001000#32 = .ok (.ret ⟨true, true, 0x2⟩) := by decide +kernel

/-- Words written out from the encodings of R473 to R484. -/
theorem test_decode_branches_6 :
    decode 0b1111111_00_1_1010_111111111_100001001#32 = .ok (.retd ⟨false, false, 0xA⟩)
      ∧ decode 0b1111111_00_1_1010_111111111_100011001#32 = .ok (.icachex ⟨0xA⟩)
      ∧ decode 0b1111111_00_1_0101_111111111_100011010#32 = .ok (.icachep ⟨0x5⟩)
      ∧ decode 0b1111111_00_1_1101_111111111_100011011#32 = .ok (.icachen ⟨0xD⟩)
      ∧ decode 0b1010100_11_0_0011_111110011_111110011#32 = .ok .switch
      ∧ decode 0b1010101_11_0_0011_111110011_111110011#32 = .ok .switchd := by decide +kernel

/-- Words written out from the encodings of R734 to R769. -/
theorem test_decode_math_1 :
    decode 0b1101001_11_0_1101_010101111_100100000#32 = .ok (.frac ⟨true, false, 0xD, 0xAF, 0x120⟩)
      ∧ decode 0b1101011_00_1_0101_011011110_101001001#32 = .ok (.setacca ⟨false, true, 0x5, 0xDE, 0x149⟩)
      ∧ decode 0b1101011_10_1_1101_011000011_100101100#32 = .ok (.setaccb ⟨false, true, 0xD, 0xC3, 0x12C⟩)
      ∧ decode 0b1101100_01_1_0010_010101000_101001111#32 = .ok (.maca ⟨true, true, 0x2, 0xA8, 0x14F⟩)
      ∧ decode 0b1101100_11_0_1010_011001101_100110010#32 = .ok (.macb ⟨true, false, 0xA, 0xCD, 0x132⟩)
      ∧ decode 0b1101101_01_0_0101_010110010_101010101#32 = .ok (.mul32 ⟨true, false, 0x5, 0xB2, 0x155⟩)
      ∧ decode 0b1101101_10_0_1101_011010111_100111000#32 = .ok (.mul32u ⟨false, false, 0xD, 0xD7, 0x138⟩)
      ∧ decode 0b1101110_00_0_0010_010111100_100011011#32 = .ok (.div32 ⟨false, false, 0x2, 0xBC, 0x11B⟩)
      ∧ decode 0b1101110_10_1_1010_011100001_100111110#32 = .ok (.div32u ⟨false, true, 0xA, 0xE1, 0x13E⟩)
      ∧ decode 0b1101111_01_1_0101_011000110_100100001#32 = .ok (.div64 ⟨true, true, 0x5, 0xC6, 0x121⟩)
      ∧ decode 0b1101111_11_1_1101_010101011_101000100#32 = .ok (.div64u ⟨true, true, 0xD, 0xAB, 0x144⟩)
      ∧ decode 0b1110000_01_1_0010_011010000_100100111#32 = .ok (.sqrt64 ⟨true, true, 0x2, 0xD0, 0x127⟩)
      ∧ decode 0b1110000_10_0_1010_010110101_101001010#32 = .ok (.qsincos ⟨false, false, 0xA, 0xB5, 0x14A⟩)
      ∧ decode 0b1110001_00_0_0101_011011010_100101101#32 = .ok (.qarctan ⟨false, false, 0x5, 0xDA, 0x12D⟩)
      ∧ decode 0b1110001_10_0_1101_010111111_101010000#32 = .ok (.qrotate ⟨false, false, 0xD, 0xBF, 0x150⟩)
      ∧ decode 0b1111111_10_0_0101_011010110_000000110#32 = .ok (.getacal ⟨true, false, 0x5, 0xD6⟩) := by decide +kernel

/-- Words written out from the encodings of R769 to R738. -/
theorem test_decode_math_2 :
    decode 0b1111111_01_0_1101_010111011_000000111#32 = .ok (.getacah ⟨false, true, 0xD, 0xBB⟩)
      ∧ decode 0b1111111_11_0_0010_011100000_000001000#32 = .ok (.getacbl ⟨true, true, 0x2, 0xE0⟩)
      ∧ decode 0b1111111_00_0_1010_011000101_000001001#32 = .ok (.getacbh ⟨false, false, 0xA, 0xC5⟩)
      ∧ decode 0b1111111_11_0_0010_011001000_000010000#32 = .ok (.getmull ⟨true, true, 0x2, 0xC8⟩)
      ∧ decode 0b1111111_00_0_1010_010101101_000010001#32 = .ok (.getmulh ⟨false, false, 0xA, 0xAD⟩)
      ∧ decode 0b1111111_10_0_0101_011010010_000010010#32 = .ok (.getdivq ⟨true, false, 0x5, 0xD2⟩)
      ∧ decode 0b1111111_01_0_1101_010110111_000010011#32 = .ok (.getdivr ⟨false, true, 0xD, 0xB7⟩)
      ∧ decode 0b1111111_11_0_0010_011011100_000010100#32 = .ok (.getsqrt ⟨true, true, 0x2, 0xDC⟩)
      ∧ decode 0b1111111_00_0_1010_011000001_000010101#32 = .ok (.getqx ⟨false, false, 0xA, 0xC1⟩)
      ∧ decode 0b1111111_10_0_0101_010100110_000010110#32 = .ok (.getqy ⟨true, false, 0x5, 0xA6⟩)
      ∧ decode 0b1111111_01_0_1101_011001011_000010111#32 = .ok (.getqz ⟨false, true, 0xD, 0xCB⟩)
      ∧ decode 0b1111111_00_1_0010_011100000_010010101#32 = .ok (.saracca ⟨true, 0x2, 0xE0⟩)
      ∧ decode 0b1111111_00_0_1010_011000101_010010110#32 = .ok (.saraccb ⟨false, 0xA, 0xC5⟩)
      ∧ decode 0b1111111_00_0_0101_010101010_010010111#32 = .ok (.saraccs ⟨false, 0x5, 0xAA⟩)
      ∧ decode 0b1111111_00_0_1101_011000111_010110000#32 = .ok (.div64d ⟨false, 0xD, 0xC7⟩)
      ∧ decode 0b1111111_00_1_0010_010101100_010110001#32 = .ok (.sqrt32 ⟨true, 0x2, 0xAC⟩) := by decide +kernel

/-- Words written out from the encodings of R744 to R765. -/
theorem test_decode_math_3 :
    decode 0b1111111_00_1_1010_011010001_010110010#32 = .ok (.qlog ⟨true, 0xA, 0xD1⟩)
      ∧ decode 0b1111111_00_1_0101_010110110_010110011#32 = .ok (.qexp ⟨true, 0x5, 0xB6⟩)
      ∧ decode 0b1111111_00_0_1101_011011011_010110100#32 = .ok (.setqi ⟨false, 0xD, 0xDB⟩)
      ∧ decode 0b1111111_00_0_0010_011000000_010110101#32 = .ok (.setqz ⟨false, 0x2, 0xC0⟩)
      ∧ decode 0b1111111_00_1_1010_111111111_100010001#32 = .ok (.clracca ⟨0xA⟩)
      ∧ decode 0b1111111_00_1_0101_111111111_100010010#32 = .ok (.clraccb ⟨0x5⟩)
      ∧ decode 0b1111111_00_1_1101_111111111_100010011#32 = .ok (.clraccs ⟨0xD⟩) := by decide +kernel

/-- Words written out from the encodings of R861 to R810. -/
theorem test_decode_pins_1 :
    decode 0b1110010_01_0_0010_011100100_100110011#32 = .ok (.setsera ⟨true, false, 0x2, 0xE4, 0x133⟩)
      ∧ decode 0b1110010_11_1_1010_011001001_101010110#32 = .ok (.setserb ⟨true, true, 0xA, 0xC9, 0x156⟩)
      ∧ decode 0b1110011_01_1_0101_010101110_100111001#32 = .ok (.setctrs ⟨true, true, 0x5, 0xAE, 0x139⟩)
      ∧ decode 0b1110011_10_1_1101_011010011_100011100#32 = .ok (.setwavs ⟨false, true, 0xD, 0xD3, 0x11C⟩)
      ∧ decode 0b1110100_00_1_0010_010111000_100111111#32 = .ok (.setfrqs ⟨false, true, 0x2, 0xB8, 0x13F⟩)
      ∧ decode 0b1110100_10_0_1010_011011101_100100010#32 = .ok (.setphss ⟨false, false, 0xA, 0xDD, 0x122⟩)
      ∧ decode 0b1110101_01_0_0101_011000010_101000101#32 = .ok (.addphss ⟨true, false, 0x5, 0xC2, 0x145⟩)
      ∧ decode 0b1110101_11_0_1101_010100111_100101000#32 = .ok (.subphss ⟨true, false, 0xD, 0xA7, 0x128⟩)
      ∧ decode 0b1111000_01_1_0010_011100000_101010111#32 = .ok (.cfgpins 0x0 ⟨true, true, 0x2, 0xE0, 0x157⟩)
      ∧ decode 0b1111010_01_0_0101_010101010_100011101#32 = .ok (.setxfr ⟨true, false, 0x5, 0xAA, 0x11D⟩)
      ∧ decode 0b1111111_10_0_0101_010111110_000001110#32 = .ok (.serina ⟨true, false, 0x5, 0xBE⟩)
      ∧ decode 0b1111111_01_0_1101_011100011_000001111#32 = .ok (.serinb ⟨false, true, 0xD, 0xE3⟩)
      ∧ decode 0b1111111_11_0_0010_010110000_000011000#32 = .ok (.getphsa ⟨true, true, 0x2, 0xB0⟩)
      ∧ decode 0b1111111_00_0_1010_011010101_000011001#32 = .ok (.getphza ⟨false, false, 0xA, 0xD5⟩)
      ∧ decode 0b1111111_10_0_0101_010111010_000011010#32 = .ok (.getcosa ⟨true, false, 0x5, 0xBA⟩)
      ∧ decode 0b1111111_01_0_1101_011011111_000011011#32 = .ok (.getsina ⟨false, true, 0xD, 0xDF⟩) := by decide +kernel

/-- Words written out from the encodings of R807 to R788. -/
theorem test_decode_pins_2 :
    decode 0b1111111_11_0_0010_011000100_000011100#32 = .ok (.getphsb ⟨true, true, 0x2, 0xC4⟩)
      ∧ decode 0b1111111_00_0_1010_010101001_000011101#32 = .ok (.getphzb ⟨false, false, 0xA, 0xA9⟩)
      ∧ decode 0b1111111_10_0_0101_011001110_000011110#32 = .ok (.getcosb ⟨true, false, 0x5, 0xCE⟩)
      ∧ decode 0b1111111_01_0_1101_010110011_000011111#32 = .ok (.getsinb ⟨false, true, 0xD, 0xB3⟩)
      ∧ decode 0b1111111_01_1_1101_010111111_010001000#32 = .ok (.getp ⟨false, true, true, 0xD, 0xBF⟩)
      ∧ decode 0b1111111_11_1_0010_011100100_010001001#32 = .ok (.getnp ⟨true, true, true, 0x2, 0xE4⟩)
      ∧ decode 0b1111111_00_0_1010_011001001_010001010#32 = .ok (.serouta ⟨false, false, 0xA, 0xC9⟩)
      ∧ decode 0b1111111_00_0_0101_010101110_010001011#32 = .ok (.seroutb ⟨false, false, 0x5, 0xAE⟩)
      ∧ decode 0b1111111_00_1_1101_010111011_010010100#32 = .ok (.setrace ⟨true, 0xD, 0xBB⟩)
      ∧ decode 0b1111111_00_0_1101_011011111_010101000#32 = .ok (.offp ⟨false, 0xD, 0xDF⟩)
      ∧ decode 0b1111111_00_0_0010_011000100_010101001#32 = .ok (.notp ⟨false, 0x2, 0xC4⟩)
      ∧ decode 0b1111111_00_0_1010_010101001_010101010#32 = .ok (.clrp ⟨false, 0xA, 0xA9⟩)
      ∧ decode 0b1111111_00_1_0101_011001110_010101011#32 = .ok (.setp ⟨true, 0x5, 0xCE⟩)
      ∧ decode 0b1111111_00_1_1101_010110011_010101100#32 = .ok (.setpc ⟨true, 0xD, 0xB3⟩)
      ∧ decode 0b1111111_00_1_0010_011011000_010101101#32 = .ok (.setpnc ⟨true, 0x2, 0xD8⟩)
      ∧ decode 0b1111111_00_0_1010_010111101_010101110#32 = .ok (.setpz ⟨false, 0xA, 0xBD⟩) := by decide +kernel

/-- Words written out from the encodings of R789 to R805. -/
theorem test_decode_pins_3 :
    decode 0b1111111_00_0_0101_011100010_010101111#32 = .ok (.setpnz ⟨false, 0x5, 0xE2⟩)
      ∧ decode 0b1111111_00_0_1010_010100101_010110110#32 = .ok (.cfgdacs ⟨false, 0xA, 0xA5⟩)
      ∧ decode 0b1111111_00_1_0101_011001010_010110111#32 = .ok (.setdacs ⟨true, 0x5, 0xCA⟩)
      ∧ decode 0b1111111_00_1_1101_010101111_010111000#32 = .ok (.cfgdac0 ⟨true, 0xD, 0xAF⟩)
      ∧ decode 0b1111111_00_1_0010_011010100_010111001#32 = .ok (.cfgdac1 ⟨true, 0x2, 0xD4⟩)
      ∧ decode 0b1111111_00_0_1010_010111001_010111010#32 = .ok (.cfgdac2 ⟨false, 0xA, 0xB9⟩)
      ∧ decode 0b1111111_00_0_0101_011011110_010111011#32 = .ok (.cfgdac3 ⟨false, 0x5, 0xDE⟩)
      ∧ decode 0b1111111_00_0_1101_011000011_010111100#32 = .ok (.setdac0 ⟨false, 0xD, 0xC3⟩)
      ∧ decode 0b1111111_00_1_0010_010101000_010111101#32 = .ok (.setdac1 ⟨true, 0x2, 0xA8⟩)
      ∧ decode 0b1111111_00_1_1010_011001101_010111110#32 = .ok (.setdac2 ⟨true, 0xA, 0xCD⟩)
      ∧ decode 0b1111111_00_1_0101_010110010_010111111#32 = .ok (.setdac3 ⟨true, 0x5, 0xB2⟩)
      ∧ decode 0b1111111_00_0_1101_011010111_011000000#32 = .ok (.setctra ⟨false, 0xD, 0xD7⟩)
      ∧ decode 0b1111111_00_0_0010_010111100_011000001#32 = .ok (.setwava ⟨false, 0x2, 0xBC⟩)
      ∧ decode 0b1111111_00_0_1010_011100001_011000010#32 = .ok (.setfrqa ⟨false, 0xA, 0xE1⟩)
      ∧ decode 0b1111111_00_1_0101_011000110_011000011#32 = .ok (.setphsa ⟨true, 0x5, 0xC6⟩)
      ∧ decode 0b1111111_00_1_1101_010101011_011000100#32 = .ok (.addphsa ⟨true, 0xD, 0xAB⟩) := by decide +kernel

/-- Words written out from the encodings of R806 to R811. -/
theorem test_decode_pins_4 :
    decode 0b1111111_00_1_0010_011010000_011000101#32 = .ok (.subphsa ⟨true, 0x2, 0xD0⟩)
      ∧ decode 0b1111111_00_0_1101_010111111_011001000#32 = .ok (.setctrb ⟨false, 0xD, 0xBF⟩)
      ∧ decode 0b1111111_00_1_0010_011100100_011001001#32 = .ok (.setwavb ⟨true, 0x2, 0xE4⟩)
      ∧ decode 0b1111111_00_1_1010_011001001_011001010#32 = .ok (.setfrqb ⟨true, 0xA, 0xC9⟩)
      ∧ decode 0b1111111_00_1_0101_010101110_011001011#32 = .ok (.setphsb ⟨true, 0x5, 0xAE⟩)
      ∧ decode 0b1111111_00_0_1101_011010011_011001100#32 = .ok (.addphsb ⟨false, 0xD, 0xD3⟩)
      ∧ decode 0b1111111_00_0_0010_010111000_011001101#32 = .ok (.subphsb ⟨false, 0x2, 0xB8⟩)
      ∧ decode 0b1111111_00_0_1101_011001111_011011000#32 = .ok (.setpora ⟨false, 0xD, 0xCF⟩)
      ∧ decode 0b1111111_00_0_0010_010110100_011011001#32 = .ok (.setporb ⟨false, 0x2, 0xB4⟩)
      ∧ decode 0b1111111_00_0_1010_011011001_011011010#32 = .ok (.setporc ⟨false, 0xA, 0xD9⟩)
      ∧ decode 0b1111111_00_1_0101_010111110_011011011#32 = .ok (.setpord ⟨true, 0x5, 0xBE⟩)
      ∧ decode 0b1111111_10_1_0101_111111111_100001010#32 = .ok (.polctra ⟨true, false, 0x5⟩)
      ∧ decode 0b1111111_01_1_1101_111111111_100001011#32 = .ok (.polctrb ⟨false, true, 0xD⟩)
      ∧ decode 0b1111111_00_1_1010_111111111_100001101#32 = .ok (.capctra ⟨0xA⟩)
      ∧ decode 0b1111111_00_1_0101_111111111_100001110#32 = .ok (.capctrb ⟨0x5⟩)
      ∧ decode 0b1111111_00_1_1101_111111111_100001111#32 = .ok (.capctrs ⟨0xD⟩) := by decide +kernel

/-- Words written out from the encodings of R816 to R816. -/
theorem test_decode_pins_5 :
    decode 0b1111111_00_1_0101_111111111_100010110#32 = .ok (.synctra ⟨0x5⟩)
      ∧ decode 0b1111111_00_1_1101_111111111_100010111#32 = .ok (.synctrb ⟨0xD⟩) := by decide +kernel

/-- Words written out from the encodings of R931 to R941. -/
theorem test_decode_remap :
    decode 0b1111111_00_0_0010_011001100_010010001#32 = .ok (.setmap ⟨false, 0x2, 0xCC⟩)
      ∧ decode 0b1111111_00_0_1010_010110001_010010010#32 = .ok (.setxch ⟨false, 0xA, 0xB1⟩) := by decide +kernel

/-- Words written out from the encodings of R198 to R202. -/
theorem test_decode_second_names :
    decode 0b0000000_00_0_0000_000000000_000000000#32 = .ok .nop
      ∧ decode 0b1101001_00_1_1101_010111111_011000001#32 = .ok (.pusha ⟨false, 0xD, 0xBF⟩)
      ∧ decode 0b1101001_00_1_0010_011100100_111000001#32 = .ok (.pushb ⟨false, 0x2, 0xE4⟩)
      ∧ decode 0b0000100_00_1_1010_011001001_010111111#32 = .ok (.popa ⟨false, false, 0xA, 0xC9⟩)
      ∧ decode 0b0000100_10_1_0101_010101110_110111111#32 = .ok (.popb ⟨true, false, 0x5, 0xAE⟩) := by decide +kernel

/-! ### One step, by the vectors of 95_test_vectors.md -/

/-- Vector B1.1; R589. -/
theorem test_add_1 :
    runs 0x50582001 (flags false false (regs [(0x10,5)]))
      (fun s => reg 0x10 s == 5 && s.task.pc.toNat == 1) = true := by decide +kernel

/-- Vector B1.2; R589. -/
theorem test_add_2 :
    runs 0x50582001 (flags true false (regs [(0x10,5)]))
      (fun s => reg 0x10 s == 6 && s.task.pc.toNat == 1) = true := by decide +kernel

/-- Vector B2.1; R581. -/
theorem test_mov_1 : runs 0x407C21FF State.reset (fun s => reg 0x10 s == 0x1FF) = true := by decide +kernel

/-- Vector B3.1; R581. -/
theorem test_mov_2 :
    runs 0x4053E401 (withInda 8 8 15 State.reset)
      (fun s => reg 8 s == 1 && ia s == (9,8,15)) = true := by decide +kernel

/-- Vector B4.1; R244. -/
theorem test_rdbyte_1 :
    runs 0x007C2000 (withPtra 2 State.reset)
      (fun s => reg 0x10 s == 0x6F && s.cog.ptra == 2) = true := by decide +kernel

/-- Vector B4.2; R246. -/
theorem test_rdword_1 : runs 0x043C2011 (regs [(0x11,1)]) (fun s => reg 0x10 s == 0x7250) = true := by decide +kernel

/-- Vector B4.3; R248. -/
theorem test_rdlong_1 : runs 0x083C2011 (regs [(0x11,3)]) (fun s => reg 0x10 s == 0x706F7250) = true := by decide +kernel

/-- Vector B4.4; R248. -/
theorem test_rdlong_2 :
    runs 0x083C2011 (regs [(0x11,0xFFFC0004)])
      (fun s => reg 0x10 s == 0x20302E32) = true := by decide +kernel

/-- Vector B4.5; R244. -/
theorem test_rdbyte_2 :
    runs 0x017C2000 (withPtra 8 State.reset)
      (fun s => reg 0x10 s == 0 && s.task.z) = true := by decide +kernel

/-- Vector B4.6; R246. -/
theorem test_rdword_2 :
    runs 0x05FC2000 (withPtra 0xA State.reset)
      (fun s => reg 0x10 s == 0xC7C && !s.task.z) = true := by decide +kernel

/-- Vector B4.10; R202. -/
theorem test_popa_1 :
    runs 0x087C20BF (withPtra 8 State.reset)
      (fun s => reg 0x10 s == 0x20302E32 && s.cog.ptra == 4) = true := by decide +kernel

/-- Vector B4.11; R252. -/
theorem test_wrlong_1 :
    runs 0xD27C2000 (withPtra 0x1000 (regs [(0x10,0x11223344)]))
      (fun s => hubAt 0x1000 s == 0x11223344 && s.hub.mem.byte 0x1000 == 0x44) = true := by decide +kernel

/-- Vector B4.14; R251. -/
theorem test_wrword_1 :
    runs 0xD17C21C1 (withPtrb 0x1001 (regs [(0x10,0xAABBCCDD)]))
      (fun s => hubAt 0x1000 s == 0xCCDD && s.cog.ptrb == 0x1003) = true := by decide +kernel

/-- Vector B4.15; R250. -/
theorem test_wrbyte_1 :
    runs 0xD0FFFE00 (withPtra 0x1000 State.reset)
      (fun s => hubAt 0x1000 s == 0xFF) = true := by decide +kernel

/-- Vector B4.16; R202. -/
theorem test_pusha_1 :
    runs 0xD2FC0AC1 (withPtra 0x1000 State.reset)
      (fun s => hubAt 0x1000 s == 5 && s.cog.ptra == 0x1004) = true := by decide +kernel

/-- Vector B4.17; R252. -/
theorem test_wrlong_2 : runs 0xD2FC0A00 (withPtra 0 State.reset) (fun s => hubAt 0 s == 0x706F7250) = true :=
  by decide +kernel

/-- Vector B5.1; R255. -/
theorem test_rdwide_1 :
    runs 0xFE7C0086 (withPtra 0x13 State.reset)
      (fun s => s.cog.wide.regs == ⟨0x706f7250,0x20302e32,0xc7c2000,0xc7ccc03,0xdc1fe45,0xcfcb6e3,0xc7cc601,0xd7cc601⟩
        && s.cog.wide.tag == 0 && s.cog.wide.valid) = true := by decide +kernel

/-- Vector B5.5; R255. -/
theorem test_rdwide_2 :
    runs 0xFE3C2286 (regs [(0x11,0x1000)])
      (fun s => s.cog.wide.regs == Octet.all 0 && s.cog.wide.tag == 0x80 && s.cog.wide.valid) = true := by decide +kernel

/-- Vector B5.8; R260. -/
theorem test_setwide_1 :
    runs 0xFE7C309E State.reset
      (fun s => s.cog.wide.base == 0x18 && s.cog.wide.mapped) = true := by decide +kernel

/-- Vector B5.11; R257. -/
theorem test_wrwide_1 :
    runs 0xFE7FFA87 (withPtrb 0x1060
        (inCog (fun c => { c with wide := {c.wide with regs := ⟨1,2,3,4,5,6,7,8⟩ } }) State.reset))
      (fun s => hubAt 0x1060 s == 1 && hubAt 0x107C s == 8 && s.cog.ptrb == 0x1000) = true := by decide +kernel

/-- Vector B5.12; R256. -/
theorem test_rdwidec_1 :
    runs 0xFE7D8285 (withPtra 0x1000
        (inCog (fun c => { c with wide := {c.wide with regs := ⟨1,2,3,4,5,6,7,8⟩,tag:=0x80,valid:=true } }) State.reset))
      (fun s => s.cog.wide.regs.e0 == 1 && s.cog.ptra == 0x1020) = true := by decide +kernel

/-- Vector B6.1; R343. -/
theorem test_wraux_1 : runs 0xD4FC0E05 State.reset (fun s => auxAt 5 s == 7) = true := by decide +kernel

/-- Vector B6.2; R344. -/
theorem test_wrauxr_1 : runs 0xD5FC0E05 State.reset (fun s => auxAt 250 s == 7) = true := by decide +kernel

/-- Vector B6.3; R341. -/
theorem test_rdaux_1 :
    runs 0x0C3C2011 (withAux 0x34 0xCAFE (regs [(0x11,0x1234)]))
      (fun s => reg 0x10 s == 0xCAFE) = true := by decide +kernel

/-- Vector B6.4; R345. -/
theorem test_pushx_1 :
    runs 0xD47C2161 (inCog (fun c => { c with ptrx := 0xFF }) (regs [(0x10,9)]))
      (fun s => auxAt 255 s == 9 && s.cog.ptrx == 0) = true := by decide +kernel

/-- Vector B6.5; R345. -/
theorem test_popx_1 :
    runs 0x0C7C215F (withAux 255 9 State.reset)
      (fun s => reg 0x10 s == 9 && s.cog.ptrx == 0xFF) = true := by decide +kernel

/-- Vector B6.6; R345. -/
theorem test_pushy_1 : runs 0xD5FC13E1 State.reset (fun s => auxAt 255 s == 9 && s.cog.ptry == 1) = true := by decide +kernel

/-- Vector B6.7; R345. -/
theorem test_pushy_2 :
    runs 0xD5FC11E1 (inCog (fun c => { c with ptry := 1 }) State.reset)
      (fun s => auxAt 254 s == 8 && s.cog.ptry == 2) = true := by decide +kernel

/-- Vector B6.8; R345. -/
theorem test_popy_1 :
    runs 0x0E7C21DF (withAux 254 8 (inCog (fun c => { c with ptry := 2 }) State.reset))
      (fun s => reg 0x10 s == 8 && s.cog.ptry == 1) = true := by decide +kernel

/-- Vector B6.9; R344. -/
theorem test_wrauxr_2 :
    runs 0xD57C2187 (inCog (fun c => { c with ptry := 3 }) (regs [(0x10,1)]))
      (fun s => auxAt 245 s == 1 && s.cog.ptry == 3) = true := by decide +kernel

/-- Vector B6.10; R341. -/
theorem test_rdaux_2 :
    runs 0x0C7C2170 (withAux 16 4 (inCog (fun c => { c with ptrx := 16 }) State.reset))
      (fun s => reg 0x10 s == 4 && s.cog.ptrx == 0) = true := by decide +kernel

/-- Vector B6.12; R360. -/
theorem test_getptrx_1 :
    runs 0xFFBC200C (inCog (fun c => { c with ptrx := 0x80 }) State.reset)
      (fun s => reg 0x10 s == 0x80 && !s.task.z && s.task.c) = true := by decide +kernel

/-- Vector B6.13; R369. -/
theorem test_chkptry_1 : runs 0xFFBC0115 State.reset (fun s => s.task.z && !s.task.c) = true := by decide +kernel

/-- Vector B6.14; R364. -/
theorem test_addptrx_1 :
    runs 0xFE7FFEA2 (inCog (fun c => { c with ptrx := 2 }) State.reset)
      (fun s => s.cog.ptrx == 1) = true := by decide +kernel

/-- Vector B6.15; R363. -/
theorem test_setptry_1 : runs 0xFE3C20A1 (regs [(0x10,0x12345678)]) (fun s => s.cog.ptry == 0x78) = true := by decide +kernel

/-- Vector B7.1; R321. -/
theorem test_fixinda_1 :
    runs 0xFC041E08 (withInda 0x33 8 15 (withIndb 0x44 1 2 State.reset))
      (fun s => ia s == (8,8,15) && ib s == (0x44,1,2)) = true := by decide +kernel

/-- Vector B7.2; R321. -/
theorem test_fixinda_2 :
    runs 0xFC04100F (withInda 0x33 8 15 (withIndb 0x44 1 2 State.reset))
      (fun s => ia s == (15,8,15)) = true := by decide +kernel

/-- Vector B7.3; R322. -/
theorem test_fixindb_1 :
    runs 0xFC10201F (withInda 0x33 8 15 (withIndb 0x44 1 2 State.reset))
      (fun s => ib s == (31,16,31)) = true := by decide +kernel

/-- Vector B7.4; R323. -/
theorem test_fixinds_1 :
    runs 0xFC14C632 (withInda 0x33 8 15 (withIndb 0x44 1 2 State.reset))
      (fun s => ib s == (50,50,99) && ia s == (50,50,99)) = true := by decide +kernel

/-- Vector B7.5; R324. -/
theorem test_setinda_1 :
    runs 0xFC080005 (withInda 0x33 8 15 (withIndb 0x44 1 2 State.reset))
      (fun s => ia s == (5,0,511)) = true := by decide +kernel

/-- Vector B7.6; R325. -/
theorem test_setinda_2 :
    runs 0xFC0C01FC (withInda 2 3 4 State.reset)
      (fun s => ia s == (0x1FE,0,511)) = true := by decide +kernel

/-- Vector B7.7; R327. -/
theorem test_setindb_1 :
    runs 0xFC33F800 (withIndb 0x100 3 4 State.reset)
      (fun s => ib s == (0xFC,0,511)) = true := by decide +kernel

/-- Vector B7.8; R328. -/
theorem test_setinds_1 :
    runs 0xFC2C0E08 (withInda 0x1FC 3 4 State.reset)
      (fun s => ib s == (7,0,511) && ia s == (4,0,511)) = true := by decide +kernel

/-- Vector B7.9; R326. -/
theorem test_setindb_2 : runs 0xFC23E000 State.reset (fun s => ib s == (0x1F0,0,511)) = true := by decide +kernel

/-- Vector B8.1; R394. -/
theorem test_settask_1 :
    runs 0xFE7DC893 State.reset
      (fun s => s.cog.sched.task == 0xE4 && slotCount 0xE4 == 4) = true := by decide +kernel

/-- Vector B8.2; R394. -/
theorem test_settask_2 :
    runs 0xFE7C4893 State.reset
      (fun s => s.cog.sched.task == 0x24 && slotCount 0x24 == 3) = true := by decide +kernel

/-- Vector B8.5; R395. -/
theorem test_jmptask_1 :
    runs 0xF3FC1440 (atPc 5 State.reset)
      (fun s => s.cog.tasks.e3.pc == 0x40 && s.cog.tasks.e1.pc == 0x40 && s.cog.tasks.e0.pc == 6
        && s.cog.tasks.e2.pc == 2) = true := by decide +kernel

/-- Vector B8.5b; R395. -/
theorem test_jmptask_2 :
    runs 0xF3FC0840 (atPc 5 State.reset)
      (fun s => s.cog.tasks.e2.pc == 0x40 && s.cog.tasks.e1.pc == 1) = true := by decide +kernel

/-- Vector B8.7; R392. -/
theorem test_taskid_1 :
    runs 0xFE3C2001 (inCog (fun c => { c with sched := {c.sched with slots := 2 } }) State.reset)
      (fun s => reg 0x10 s == 2) = true := by decide +kernel

/-- Vector B9.1; R401. -/
theorem test_reps_1 :
    runs 0xFAD387C3 (atPc 0x10 State.reset)
      (fun s => s.task.rep == ⟨true,0x12,0x15,.count 19999⟩) = true := by decide +kernel

/-- Vector B9.2; R401. -/
theorem test_reps_2 :
    runs 0xFAC00000 (atPc 0x10 State.reset)
      (fun s => s.task.rep == ⟨true,0x12,0x12,.count 0⟩) = true := by decide +kernel

/-- Vector B9.3; R402. -/
theorem test_repd_1 :
    runs 0xFE3C4040 (atPc 0x10 State.reset)
      (fun s => s.task.rep == ⟨true,0x14,0x14,.count 0⟩) = true := by decide +kernel

/-- Vector B9.4; R402. -/
theorem test_repd_2 :
    runs 0xFE7C7E40 (atPc 0x10 State.reset)
      (fun s => s.task.rep == ⟨true,0x14,0x14,.count 63⟩) = true := by decide +kernel

/-- Vector B9.7; R460. -/
theorem test_jmp_1 :
    runs 0xFCBC0030 (inTask (fun k => { k with rep := ⟨true,0x12,0x15,.infinite⟩ }) (atPc 0x13 State.reset))
      (fun s => !s.task.rep.active && s.task.pc.toNat == 0x30) = true := by decide +kernel

/-- Vector B10.1; R411. -/
theorem test_getcnt_1 :
    runs 0xFFBC2004 (withCnt 0x180000000 State.reset)
      (fun s => reg 0x10 s == 0x80000000 && !s.task.z && s.task.c) = true := by decide +kernel

/-- Vector B10.2; R412. -/
theorem test_getcntx_1 :
    runs 0xFE3C2205 (withCnt 0x180000001 State.reset)
      (fun s => reg 0x11 s == 1) = true := by decide +kernel

/-- Vector B10.4; R415. -/
theorem test_cmpcnt_1 :
    runs 0xFEBC208C (withCnt 0xFFF (flags true true (regs [(0x10,0x1000)])))
      (fun s => !s.task.c && s.task.z && reg 0x10 s == 0x1000) = true := by decide +kernel

/-- Vector B10.4b; R415. -/
theorem test_cmpcnt_2 :
    runs 0xFEBC208C (withCnt 0x1000 (flags true false (regs [(0x10,0x1000)])))
      (fun s => s.task.c) = true := by decide +kernel

/-- Vector B10.5; R416. -/
theorem test_passcnt_1 :
    runs 0xFE3C20A6 (withCnt 0xFFF (atPc 0x20 (regs [(0x10,0x1000)])))
      (fun s => s.task.pc.toNat == 0x20) = true := by decide +kernel

/-- Vector B10.5b; R416. -/
theorem test_passcnt_2 :
    runs 0xFE3C20A6 (withCnt 0x1000 (atPc 0x20 (regs [(0x10,0x1000)])))
      (fun s => s.task.pc.toNat == 0x21) = true := by decide +kernel

/-- Vector B11.1; R460. -/
theorem test_jmp_2 :
    runs 0xFCBC0200 (queued [⟨0, 0, 0x11, false, false⟩, ⟨0, 0, 0x12, false, false⟩] (atPc 0x10 State.reset))
      (fun s => s.task.pc.toNat == 0x200 && s.cog.pipe.queue.length == 3
        && s.cog.pipe.queue.all fun e => e.task == 0 && e.cancelled) = true := by decide +kernel

/-- Vector B11.3; R461. -/
theorem test_jmpd_1 : runs 0xFCBE0040 (atPc 0x10 State.reset) (fun s => s.task.pc.toNat == 0x11) = true := by decide +kernel

/-- Vector B11.4; R462. -/
theorem test_call_1 :
    runs 0xFCFC0040 (flags true false (atPc 0x10 State.reset))
      (fun s => s.task.stack == [0x20011] && s.task.pc.toNat == 0x40) = true := by decide +kernel

/-- Vector B11.5; R463. -/
theorem test_calld_1 :
    runs 0xFCFE0040 (flags false true (atPc 0x10 State.reset))
      (fun s => s.task.stack == [0x10014] && s.task.pc.toNat == 0x11) = true := by decide +kernel

/-- Vector B11.6; R472. -/
theorem test_ret_1 :
    runs 0xFFBC0108 (inTask (fun k => { k with stack := [0x20011], c:=true }) State.reset)
      (fun s => s.task.stack == [] && s.task.z && !s.task.c && s.task.pc.toNat == 0x11) = true := by decide +kernel

/-- Vector B11.7; R472. -/
theorem test_ret_2 :
    runs 0xFE3C0108 (inTask (fun k => { k with stack := [0x20011], c:=true }) State.reset)
      (fun s => s.task.stack == [] && !s.task.z && s.task.c && s.task.pc.toNat == 0x11) = true := by decide +kernel

/-- Vector B11.8; R464. -/
theorem test_calla_1 :
    runs 0xFD3C0040 (withPtra 0x1002 (flags true true (atPc 0x10 State.reset)))
      (fun s => hubAt 0x1000 s == 0x30011 && s.cog.ptra == 0x1006 && s.task.pc.toNat == 0x40) = true := by decide +kernel

/-- Vector B11.9; R474. -/
theorem test_reta_1 :
    runs 0xFEBC0100 (withPtra 0x1004 (hubLong 0x1000 0x30011 (atPc 0x10 State.reset)))
      (fun s => s.task.c && !s.task.z && s.cog.ptra == 0x1000 && s.task.pc.toNat == 0x11) = true := by decide +kernel

/-- Vector B11.10; R468. -/
theorem test_callx_1 :
    runs 0xFDBC0040 (inCog (fun c => { c with ptrx := 0xFF }) (atPc 0x10 State.reset))
      (fun s => auxAt 255 s == 0x11 && s.cog.ptrx == 0 && s.task.pc.toNat == 0x40) = true := by decide +kernel

/-- Vector B11.11; R470. -/
theorem test_cally_1 :
    runs 0xFDFC0040 (flags false true (atPc 0x10 State.reset))
      (fun s => auxAt 255 s == 0x10011 && s.cog.ptry == 1 && s.task.pc.toNat == 0x40) = true := by decide +kernel

/-- Vector B11.12; R480. -/
theorem test_rety_1 :
    runs 0xFFBC0106 (withAux 255 0x10011 (inCog (fun c => { c with ptry := 1 }) (atPc 0x10 State.reset)))
      (fun s => s.cog.ptry == 0 && !s.task.z && s.task.c && s.task.pc.toNat == 0x11) = true := by decide +kernel

/-- Vector B11.14; R462. -/
theorem test_call_2 :
    runs 0xFE3C20F6 (atPc 0x20 (regs [(0x10,0xFFFF0300)]))
      (fun s => s.task.stack == [0x21] && s.task.pc.toNat == 0x300) = true := by decide +kernel

/-- Vector B11.17; R513. -/
theorem test_setzc_1 : runs 0xFFFC0490 (atPc 0x10 State.reset) (fun s => s.task.z && !s.task.c) = true := by decide +kernel

/-- Vector B11.18; R513. -/
theorem test_setzc_2 :
    runs 0xFEFC0290 (flags true false (atPc 0x10 State.reset))
      (fun s => s.task.z && s.task.c) = true := by decide +kernel

/-- Vector B12.1; R491. -/
theorem test_djnz_1 :
    runs 0xAF7C21FD (atPc 8 (regs [(0x10,2)]))
      (fun s => reg 0x10 s == 1 && s.task.pc.toNat == 5) = true := by decide +kernel

/-- Vector B12.2; R491. -/
theorem test_djnz_2 :
    runs 0xAF7C21FD (atPc 8 (regs [(0x10,1)]))
      (fun s => reg 0x10 s == 0 && s.task.pc.toNat == 9) = true := by decide +kernel

/-- Vector B12.5; R485. -/
theorem test_ijz_1 :
    runs 0xAC7C2008 (atPc 24 (regs [(0x10,0xFFFFFFFF)]))
      (fun s => reg 0x10 s == 0 && s.task.pc.toNat == 0x20) = true := by decide +kernel

/-- Vector B12.6; R487. -/
theorem test_ijnz_1 :
    runs 0xAD7C2008 (atPc 24 (regs [(0x10,0xFFFFFFFF)]))
      (fun s => reg 0x10 s == 0 && s.task.pc.toNat == 0x19) = true := by decide +kernel

/-- Vector B12.7; R493. -/
theorem test_jz_1 : runs 0xF67C2008 (atPc 24 (regs [(0x10,0)])) (fun s => s.task.pc.toNat == 0x20) = true :=
  by decide +kernel

/-- Vector B12.11; R482. -/
theorem test_jmpsw_1 :
    runs 0xA9BC2011 (atPc 32 (flags false true (regs [(0x11,0x20040)])))
      (fun s => reg 0x10 s == 0x10021 && s.task.z && !s.task.c && s.task.pc.toNat == 0x40) = true := by decide +kernel

/-- Vector B12.12; R482. -/
theorem test_jmpsw_2 :
    runs 0xA83C2011 (atPc 32 (flags false true (regs [(0x11,0x20040)])))
      (fun s => reg 0x10 s == 0x10021 && !s.task.z && s.task.c && s.task.pc.toNat == 0x40) = true := by decide +kernel

/-- Vector B12.13; R484. -/
theorem test_switch_1 :
    runs 0xA98FE7F3 (withIndb 0x10 0x10 0x13 (flags true true (atPc 0x17 (regs [(0x11,0x17)]))))
      (fun s => reg 0x10 s == 0x30018 && ib s == (0x11,0x10,0x13) && !s.task.z && !s.task.c
        && s.task.pc.toNat == 0x17) = true := by decide +kernel

/-- Vector B12.14; R484. -/
theorem test_switch_2 :
    runs 0xA98FE7F3 (withIndb 0x13 0x10 0x13 ((atPc 0x17 (regs [(0x10,0x30018)]))))
      (fun s => reg 0x13 s == 0x18 && ib s == (0x10,0x10,0x13) && s.task.z && s.task.c
            && s.task.pc.toNat == 0x18) = true := by decide +kernel

/-- Vector B13.1; R501. -/
theorem test_jmplist_1 :
    runs 0xFA3C2011 (atPc 32 (regs [(0x10,2),(0x11,0x1400)]))
      (fun s => s.task.pc.toNat == 0x1402) = true := by decide +kernel

/-- Vector B13.3; R502. -/
theorem test_locbase_1 :
    runs 0xF83C2011 (atPc 32 (regs [(0x11,0x1400)]))
      (fun s => reg 0x10 s == 0x5000) = true := by decide +kernel

/-- Vector B13.4; R502. -/
theorem test_locbase_2 : runs 0xF87C2008 (atPc 24 (regs [])) (fun s => reg 0x10 s == 0x80) = true := by decide +kernel

/-- Vector B13.5; R503. -/
theorem test_locbyte_1 :
    runs 0xF8BC2011 (atPc 32 (regs [(0x10,5),(0x11,0x1400)]))
      (fun s => reg 0x10 s == 0x5005) = true := by decide +kernel

/-- Vector B13.6; R504. -/
theorem test_locword_1 :
    runs 0xF93C2011 (atPc 32 (regs [(0x10,5),(0x11,0x1400)]))
      (fun s => reg 0x10 s == 0x500A) = true := by decide +kernel

/-- Vector B13.7; R505. -/
theorem test_loclong_1 :
    runs 0xF9BC2011 (atPc 32 (regs [(0x10,5),(0x11,0x1400)]))
      (fun s => reg 0x10 s == 0x5014) = true := by decide +kernel

/-- Vector B13.9; R506. -/
theorem test_locinst_1 : runs 0xFABC21FD (atPc 32 (regs [])) (fun s => reg 0x10 s == 0x1D) = true := by decide +kernel

/-- Vector B13.10; R507. -/
theorem test_locptra_1 : runs 0xFC7C1400 (atPc 32 (regs [])) (fun s => s.cog.ptra == 0x5000) = true := by decide +kernel

/-- Vector B13.11; R508. -/
theorem test_locptrb_1 : runs 0xFC7F0010 (atPc 4096 (regs [])) (fun s => s.cog.ptrb == 0x4040) = true := by decide +kernel

/-- Vector B13.12; R507. -/
theorem test_locptra_2 : runs 0xFC7CFFFF (atPc 32 (regs [])) (fun s => s.cog.ptra == 0x3FFFC) = true := by decide +kernel

/-- Vector B14.3; R590. -/
theorem test_sub_1 :
    runs 0x53FC2001 (flags false false (regs [(0x10,0x0),(0x11,0x0)]))
      (fun s => reg 0x10 s == 0xffffffff && !s.task.z && s.task.c) = true := by decide +kernel

/-- Vector B14.4; R591. -/
theorem test_addx_1 :
    runs 0x55BC2011 (flags true true (regs [(0x10,0xffffffff),(0x11,0x0)]))
      (fun s => reg 0x10 s == 0x0 && s.task.z && s.task.c) = true := by decide +kernel

/-- Vector B14.5; R591. -/
theorem test_addx_2 :
    runs 0x55BC2011 (flags false true (regs [(0x10,0xffffffff),(0x11,0x0)]))
      (fun s => reg 0x10 s == 0x0 && s.task.c) = true := by decide +kernel

/-- Vector B14.8; R592. -/
theorem test_subx_1 :
    runs 0x56BC2011 (flags false true (regs [(0x10,0x0),(0x11,0xffffffff)]))
      (fun s => reg 0x10 s == 0x0 && s.task.c) = true := by decide +kernel

/-- Vector B14.9; R628. -/
theorem test_setnib_1 :
    runs 0x96BC2011 (flags false false (regs [(0x10,0xc07c0000),(0x11,0x5)]))
      (fun s => reg 0x10 s == 0xc57c0000) = true := by decide +kernel

/-- Vector B14.10; R575. -/
theorem test_shr_1 :
    runs 0x35FC2001 (flags false false (regs [(0x10,0x80000001),(0x11,0x0)]))
      (fun s => reg 0x10 s == 0x40000000 && !s.task.z && s.task.c) = true := by decide +kernel

/-- Vector B14.11; R576. -/
theorem test_shl_1 :
    runs 0x37FC2001 (flags false false (regs [(0x10,0x80000001),(0x11,0x0)]))
      (fun s => reg 0x10 s == 0x2 && !s.task.z && s.task.c) = true := by decide +kernel

/-- Vector B14.12; R576. -/
theorem test_shl_2 :
    runs 0x36FC2000 (flags false false (regs [(0x10,0x80000001),(0x11,0x0)]))
      (fun s => reg 0x10 s == 0x80000001 && s.task.c) = true := by decide +kernel

/-- Vector B14.13; R575. -/
theorem test_shr_2 :
    runs 0x34FC2004 (flags false false (regs [(0x10,0xf8),(0x11,0x0)]))
      (fun s => reg 0x10 s == 0xf) = true := by decide +kernel

/-- Vector B14.15; R579. -/
theorem test_sar_1 :
    runs 0x3C7C2004 (flags false false (regs [(0x10,0x80000000),(0x11,0x0)]))
      (fun s => reg 0x10 s == 0xf8000000) = true := by decide +kernel

/-- Vector B14.16; R573. -/
theorem test_ror_1 :
    runs 0x307C2008 (flags false false (regs [(0x10,0x12345678),(0x11,0x0)]))
      (fun s => reg 0x10 s == 0x78123456) = true := by decide +kernel

/-- Vector B14.17; R574. -/
theorem test_rol_1 :
    runs 0x327C2004 (flags false false (regs [(0x10,0x12345678),(0x11,0x0)]))
      (fun s => reg 0x10 s == 0x23456781) = true := by decide +kernel

/-- Vector B14.18; R578. -/
theorem test_rcl_1 :
    runs 0x3AFC2001 (flags false true (regs [(0x10,0x80000000),(0x11,0x0)]))
      (fun s => reg 0x10 s == 0x1 && s.task.c) = true := by decide +kernel

/-- Vector B14.19; R577. -/
theorem test_rcr_1 :
    runs 0x38FC2001 (flags false true (regs [(0x10,0x2),(0x11,0x0)]))
      (fun s => reg 0x10 s == 0x80000001 && !s.task.c) = true := by decide +kernel

/-- Vector B14.20; R580. -/
theorem test_rev_1 :
    runs 0x3E7C2000 (flags false false (regs [(0x10,0x12345678),(0x11,0x0)]))
      (fun s => reg 0x10 s == 0x1e6a2c48) = true := by decide +kernel

/-- Vector B14.21; R580. -/
theorem test_rev_2 :
    runs 0x3E7C2018 (flags false false (regs [(0x10,0x1),(0x11,0x0)]))
      (fun s => reg 0x10 s == 0x80) = true := by decide +kernel

/-- Vector B14.22; R607. -/
theorem test_incmod_1 :
    runs 0x75FC2003 (flags false false (regs [(0x10,0x3),(0x11,0x0)]))
      (fun s => reg 0x10 s == 0x0 && s.task.z && s.task.c) = true := by decide +kernel

/-- Vector B14.23; R607. -/
theorem test_incmod_2 :
    runs 0x75FC2003 (flags false false (regs [(0x10,0x2),(0x11,0x0)]))
      (fun s => reg 0x10 s == 0x3 && !s.task.z && !s.task.c) = true := by decide +kernel

/-- Vector B14.25; R608. -/
theorem test_decmod_1 :
    runs 0x76FC2003 (flags false false (regs [(0x10,0x0),(0x11,0x0)]))
      (fun s => reg 0x10 s == 0x3 && s.task.c) = true := by decide +kernel

/-- Vector B14.26; R609. -/
theorem test_cmpsub_1 :
    runs 0x79FC200A (flags false false (regs [(0x10,0x19),(0x11,0x0)]))
      (fun s => reg 0x10 s == 0xf && !s.task.z && s.task.c) = true := by decide +kernel

/-- Vector B14.27; R609. -/
theorem test_cmpsub_2 :
    runs 0x78FC200A (flags false true (regs [(0x10,0x7),(0x11,0x0)]))
      (fun s => reg 0x10 s == 0x7 && !s.task.c) = true := by decide +kernel

/-- Vector B14.28; R601. -/
theorem test_min_1 :
    runs 0x68FC200A (flags false false (regs [(0x10,0x3),(0x11,0x0)]))
      (fun s => reg 0x10 s == 0xa && s.task.c) = true := by decide +kernel

/-- Vector B14.29; R602. -/
theorem test_max_1 :
    runs 0x6A7C200A (flags false false (regs [(0x10,0x1e),(0x11,0x0)]))
      (fun s => reg 0x10 s == 0xa) = true := by decide +kernel

/-- Vector B14.30; R603. -/
theorem test_mins_1 :
    runs 0x6C7C2000 (flags false false (regs [(0x10,0xfffffffb),(0x11,0x0)]))
      (fun s => reg 0x10 s == 0x0) = true := by decide +kernel

/-- Vector B14.31; R601. -/
theorem test_min_2 :
    runs 0x687C2000 (flags false false (regs [(0x10,0xfffffffb),(0x11,0x0)]))
      (fun s => reg 0x10 s == 0xfffffffb) = true := by decide +kernel

/-- Vector B14.32; R648. -/
theorem test_cmp_1 :
    runs 0xB7BC2011 (flags true true (regs [(0x10,0xffffffff),(0x11,0x1)]))
      (fun s => reg 0x10 s == 0xffffffff && !s.task.z && !s.task.c) = true := by decide +kernel

/-- Vector B14.33; R650. -/
theorem test_cmps_1 :
    runs 0xBBBC2011 (flags true false (regs [(0x10,0xffffffff),(0x11,0x1)]))
      (fun s => reg 0x10 s == 0xffffffff && !s.task.z && s.task.c) = true := by decide +kernel

/-- Vector B14.34; R648. -/
theorem test_cmp_2 :
    runs 0xB7FC2007 (flags false true (regs [(0x10,0x7),(0x11,0x1)]))
      (fun s => reg 0x10 s == 0x7 && s.task.z && !s.task.c) = true := by decide +kernel

/-- Vector B14.35; R652. -/
theorem test_cmpr_1 :
    runs 0xBEFC2007 (flags false false (regs [(0x10,0x9),(0x11,0x1)]))
      (fun s => reg 0x10 s == 0x9 && s.task.c) = true := by decide +kernel

/-- Vector B14.36; R647. -/
theorem test_test_1 :
    runs 0xB5FC200F (flags false true (regs [(0x10,0xf0),(0x11,0x1)]))
      (fun s => reg 0x10 s == 0xf0 && s.task.z && !s.task.c) = true := by decide +kernel

/-- Vector B14.37; R647. -/
theorem test_test_2 :
    runs 0xB5FC2007 (flags true true (regs [(0x10,0xd),(0x11,0x1)]))
      (fun s => reg 0x10 s == 0xd && !s.task.z && !s.task.c) = true := by decide +kernel

/-- Vector B14.38; R566. -/
theorem test_and_1 :
    runs 0x23FC200E (flags true true (regs [(0x10,0xb),(0x11,0x1)]))
      (fun s => reg 0x10 s == 0xa && !s.task.z && !s.task.c) = true := by decide +kernel

/-- Vector B14.39; R568. -/
theorem test_xor_1 :
    runs 0x26FC2001 (flags true true (regs [(0x10,0x2),(0x11,0x1)]))
      (fun s => reg 0x10 s == 0x3 && !s.task.c) = true := by decide +kernel

/-- Vector B14.39b; R568. -/
theorem test_xor_2 :
    runs 0x26FC2005 (flags true false (regs [(0x10,0x2),(0x11,0x1)]))
      (fun s => reg 0x10 s == 0x7 && s.task.c) = true := by decide +kernel

/-- Vector B14.40; R565. -/
theorem test_andn_1 :
    runs 0x207C200F (flags true false (regs [(0x10,0xff),(0x11,0x1)]))
      (fun s => reg 0x10 s == 0xf0) = true := by decide +kernel

/-- Vector B14.41; R569. -/
theorem test_muxc_1 :
    runs 0x287C200F (flags true true (regs [(0x10,0xa5),(0x11,0x1)]))
      (fun s => reg 0x10 s == 0xaf) = true := by decide +kernel

/-- Vector B14.41b; R569. -/
theorem test_muxc_2 :
    runs 0x287C200F (flags true false (regs [(0x10,0xa5),(0x11,0x1)]))
      (fun s => reg 0x10 s == 0xa0) = true := by decide +kernel

/-- Vector B14.42; R572. -/
theorem test_muxnz_1 :
    runs 0x2E7C200F (flags true false (regs [(0x10,0xa5),(0x11,0x1)]))
      (fun s => reg 0x10 s == 0xa0) = true := by decide +kernel

/-- Vector B14.43; R560. -/
theorem test_setb_1 :
    runs 0x167C201F (flags true false (regs [(0x10,0x0),(0x11,0x1)]))
      (fun s => reg 0x10 s == 0x80000000) = true := by decide +kernel

/-- Vector B14.44; R558. -/
theorem test_notb_1 :
    runs 0x127C2000 (flags true false (regs [(0x10,0xf),(0x11,0x1)]))
      (fun s => reg 0x10 s == 0xe) = true := by decide +kernel

/-- Vector B14.45; R561. -/
theorem test_setbc_1 :
    runs 0x187C2004 (flags true false (regs [(0x10,0xff),(0x11,0x1)]))
      (fun s => reg 0x10 s == 0xef) = true := by decide +kernel

/-- Vector B14.46; R645. -/
theorem test_testb_1 :
    runs 0xB17C2003 (flags true false (regs [(0x10,0x8),(0x11,0x1)]))
      (fun s => reg 0x10 s == 0x8 && !s.task.z) = true := by decide +kernel

/-- Vector B14.46b; R645. -/
theorem test_testb_2 :
    runs 0xB17C2003 (flags false false (regs [(0x10,0x7),(0x11,0x1)]))
      (fun s => reg 0x10 s == 0x7 && s.task.z) = true := by decide +kernel

/-- Vector B14.48; R583. -/
theorem test_abs_1 :
    runs 0x44BC2011 (flags false false (regs [(0x10,0x7),(0x11,0x80000000)]))
      (fun s => reg 0x10 s == 0x80000000 && !s.task.z && s.task.c) = true := by decide +kernel

/-- Vector B14.49; R583. -/
theorem test_abs_2 :
    runs 0x443C2011 (flags false false (regs [(0x10,0x7),(0x11,0xfffffffb)]))
      (fun s => reg 0x10 s == 0x5) = true := by decide +kernel

/-- Vector B14.50; R584. -/
theorem test_neg_1 :
    runs 0x467C2001 (flags false false (regs [(0x10,0x7),(0x11,0xfffffffb)]))
      (fun s => reg 0x10 s == 0xffffffff) = true := by decide +kernel

/-- Vector B14.51; R585. -/
theorem test_negc_1 :
    runs 0x487C2005 (flags false true (regs [(0x10,0x7),(0x11,0x0)]))
      (fun s => reg 0x10 s == 0xfffffffb) = true := by decide +kernel

/-- Vector B14.51b; R585. -/
theorem test_negc_2 :
    runs 0x487C2005 (flags false false (regs [(0x10,0x7),(0x11,0x0)]))
      (fun s => reg 0x10 s == 0x5) = true := by decide +kernel

/-- Vector B14.52; R597. -/
theorem test_sumc_1 :
    runs 0x607C2005 (flags false true (regs [(0x10,0x14),(0x11,0x0)]))
      (fun s => reg 0x10 s == 0xf) = true := by decide +kernel

/-- Vector B14.52b; R597. -/
theorem test_sumc_2 :
    runs 0x607C2005 (flags false false (regs [(0x10,0x14),(0x11,0x0)]))
      (fun s => reg 0x10 s == 0x19) = true := by decide +kernel

/-- Vector B14.53; R605. -/
theorem test_addabs_1 :
    runs 0x703C2011 (flags false false (regs [(0x10,0xa),(0x11,0xfffffffd)]))
      (fun s => reg 0x10 s == 0xd) = true := by decide +kernel

/-- Vector B14.54; R610. -/
theorem test_subr_1 :
    runs 0x7AFC200A (flags false true (regs [(0x10,0x3),(0x11,0xfffffffd)]))
      (fun s => reg 0x10 s == 0x7 && !s.task.c) = true := by decide +kernel

/-- Vector B14.55; R616. -/
theorem test_decod5_1 :
    runs 0x867C201F (flags false true (regs [(0x10,0x3),(0x11,0x0)]))
      (fun s => reg 0x10 s == 0x80000000) = true := by decide +kernel

/-- Vector B14.57; R619. -/
theorem test_onecnt_1 :
    runs 0x8B3C2011 (flags true true (regs [(0x10,0x3),(0x11,0xf0f0000f)]))
      (fun s => reg 0x10 s == 0xc && !s.task.z) = true := by decide +kernel

/-- Vector B14.57b; R620. -/
theorem test_zercnt_1 :
    runs 0x8ABC2011 (flags true true (regs [(0x10,0x3),(0x11,0xf0f0000f)]))
      (fun s => reg 0x10 s == 0x14) = true := by decide +kernel

/-- Vector B14.59; R640. -/
theorem test_setbyte_1 :
    runs 0xA2FC20AB (flags false false (regs [(0x10,0x11223344),(0x11,0x0)]))
      (fun s => reg 0x10 s == 0x11ab3344) = true := by decide +kernel

/-- Vector B14.60; R630. -/
theorem test_setword_1 :
    runs 0x99BC2011 (flags false false (regs [(0x10,0x11223344),(0x11,0xbeef)]))
      (fun s => reg 0x10 s == 0xbeef3344) = true := by decide +kernel

/-- Vector B14.61; R631. -/
theorem test_setwrds_1 :
    runs 0x9A3C2011 (flags false false (regs [(0x10,0x0),(0x11,0x1234beef)]))
      (fun s => reg 0x10 s == 0xbeefbeef) = true := by decide +kernel

/-- Vector B14.62; R632. -/
theorem test_rolnib_1 :
    runs 0x9AFC201F (flags false false (regs [(0x10,0x12345678),(0x11,0x0)]))
      (fun s => reg 0x10 s == 0x2345678f) = true := by decide +kernel

/-- Vector B14.63; R633. -/
theorem test_rolbyte_1 :
    runs 0x9B7C20AB (flags false false (regs [(0x10,0x12345678),(0x11,0x0)]))
      (fun s => reg 0x10 s == 0x345678ab) = true := by decide +kernel

/-- Vector B14.64; R635. -/
theorem test_sets_1 :
    runs 0x9C7C21FF (flags false false (regs [(0x10,0x503c2011),(0x11,0x0)]))
      (fun s => reg 0x10 s == 0x503c21ff) = true := by decide +kernel

/-- Vector B14.65; R636. -/
theorem test_setd_1 :
    runs 0x9CFC21FF (flags false false (regs [(0x10,0x503c2011),(0x11,0x0)]))
      (fun s => reg 0x10 s == 0x503ffe11) = true := by decide +kernel

/-- Vector B14.66; R638. -/
theorem test_seti_1 :
    runs 0x9DFC20A5 (flags false false (regs [(0x10,0x503c2011),(0x11,0x0)]))
      (fun s => reg 0x10 s == 0x52bc2011) = true := by decide +kernel

/-- Vector B14.67; R641. -/
theorem test_setbyts_1 :
    runs 0xA47C205A (flags false false (regs [(0x10,0x503c2011),(0x11,0x0)]))
      (fun s => reg 0x10 s == 0x5a5a5a5a) = true := by decide +kernel

/-- Vector B14.68; R642. -/
theorem test_movbyts_1 :
    runs 0xA4FC201B (flags false false (regs [(0x10,0x11223344),(0x11,0x0)]))
      (fun s => reg 0x10 s == 0x44332211) = true := by decide +kernel

/-- Vector B14.69; R643. -/
theorem test_packrgb_1 :
    runs 0xA53C2011 (flags false false (regs [(0x10,0x12345678),(0x11,0xff8040)]))
      (fun s => reg 0x10 s == 0x7e081234) = true := by decide +kernel

/-- Vector B14.71; R662. -/
theorem test_incd_1 :
    runs 0xFE3C202C (flags false false (regs [(0x10,0x503c2011),(0x11,0x0)]))
      (fun s => reg 0x10 s == 0x503c2211) = true := by decide +kernel

/-- Vector B14.72; R665. -/
theorem test_decds_1 :
    runs 0xFF3C202F (flags false false (regs [(0x10,0x201),(0x11,0x0)]))
      (fun s => reg 0x10 s == 0x0 && s.task.z) = true := by decide +kernel

/-- Vector B14.73; R664. -/
theorem test_incds_1 :
    runs 0xFE3C202E (flags false false (regs [(0x10,0xffffffff),(0x11,0x0)]))
      (fun s => reg 0x10 s == 0x200) = true := by decide +kernel

/-- Vector B14.74; R656. -/
theorem test_bingry_1 :
    runs 0xFE3C2026 (flags false false (regs [(0x10,0x6),(0x11,0x0)]))
      (fun s => reg 0x10 s == 0x5) = true := by decide +kernel

/-- Vector B14.75; R657. -/
theorem test_grybin_1 :
    runs 0xFE3C2027 (flags false false (regs [(0x10,0x5),(0x11,0x0)]))
      (fun s => reg 0x10 s == 0x6) = true := by decide +kernel

/-- Vector B14.75b; R657. -/
theorem test_grybin_2 :
    runs 0xFE3C2027 (flags false false (regs [(0x10,0x80000000),(0x11,0x0)]))
      (fun s => reg 0x10 s == 0xffffffff) = true := by decide +kernel

/-- Vector B15.2; R297. -/
theorem test_cogid_1 : runs 0xFF3C2000 (regs [(0x10,4)]) (fun s => reg 0x10 s == 0 && s.task.z) = true := by decide +kernel

/-- Vector B15.3; R297. -/
theorem test_cogid_2 :
    runs 0xFEBC2000 (flags false true (regs [(0x10,3)]))
      (fun s => reg 0x10 s == 3 && !s.task.c) = true := by decide +kernel

/-- Vector B15.5; R305. -/
theorem test_lockset_1 :
    runs 0xFEFC0482 State.reset
      (fun s => !s.task.c && s.hub.lockState == ⟨false,false,true,false,false,false,false,false⟩) = true := by decide +kernel

/-- Vector B15.11; R292. -/
theorem test_coginit_1 :
    runs 0xC33C2011 (regs [(0x10,0x1000),(0x11,0x20)])
      (fun s => s.cogs.e3.ptra == 0x20 && s.cogs.e3.ptrb == 0x1000
            && s.cogs.e3.run == .loading 1017) = true := by decide +kernel

/-- Vector B15.13; R300. -/
theorem test_clkset_1 : runs 0xFE3C2080 (regs [(0x10,0xFFFFFE6B)]) (fun s => s.hub.clk == 0x6B) = true := by decide +kernel
/-- R34, U39: off are the PLL with MMMM = 0 or XX = %00 and XTAL with XX = %00; on are both with XX = %01, and RC. -/
theorem test_clkset_2 :
    [0b0_0000_11_11#9, 0b0_1111_00_11#9, 0b0_1111_00_10#9, 0b0_0001_01_11#9, 0b0_0000_01_10#9, 0b0_0000_00_01#9].map clockOff
      = [true, true, true, false, false, false] ∧ refusedAs (exec (.clkset ⟨true, 15, 3⟩) State.reset) .clockSource = true := by
  decide +kernel

/-! ### The vectors on the hub (B15), and the vector tables of 46, 47, 48, 49 -/

/-- Vector B15.3: with WC the run state of the cog in D. -/
theorem test_cogid_wc : runs 0xFEBC2000 (alsoRunning [3] (regs [(0x10, 3)])) (fun s => reg 0x10 s == 3 && s.task.c) = true :=
  by
  decide +kernel
/-- Vector B15.4: cog 2 is the lowest idle one; R291. -/
theorem test_cognew_1 :
    runs 0x9EBC2011 (alsoRunning [1] (flags false true (regs [(0x10, 0xE03), (0x11, 0xFFFC1234)])))
      (fun s => s.cogs.e2.ptra == 0x1234 && s.cogs.e2.ptrb == 0xE00 && reg 0x10 s == 2
            && !s.task.c) = true := by decide +kernel
/-- Vector B15.7: lock 2 is the lowest free one; R303. -/
theorem test_locknew_1 :
    runs 0xFFBC2002 (inHub (fun h => { h with lockTaken := ⟨true, true, false, false, false, false, false,
          false⟩ }) State.reset)
      (fun s => reg 0x10 s == 2 && s.hub.lockTaken.e2 && !s.hub.lockTaken.e3 && !s.task.z
            && !s.task.c) = true := by decide +kernel
/-- Vector B15.9; R304. -/
theorem test_lockret_1 :
    runs 0xFE7C0484 (inHub (fun h => { h with lockTaken := Octet.all true, lockState := Octet.all true }) State.reset)
      (fun s => !s.hub.lockTaken.e2 && s.hub.lockTaken.e3 && s.hub.lockState.e2) = true := by decide +kernel
/-- Vector B15.10; R298. -/
theorem test_cogstop_1 :
    runs 0xFE7C0681 (alsoRunning [3] State.reset) (fun s => s.cogs.e3.run == .idle && s.cogs.e0.run == .running) = true := by
  decide +kernel

/-- R725: the product of $80000000 with itself, unsigned. -/
theorem test_mul32u_1 :
    goesTo (exec (.mul32u ⟨false, false, 15, 0x10, 0x11⟩) (regs [(0x10, 0x80000000), (0x11, 0x80000000)]))
      (fun s => s.cog.math.mulResult == 0x4000000000000000 && s.cog.math.mulLeft != 0) = true := by decide +kernel
/-- R724: -2^31 times 1. -/
theorem test_mul32_1 :
    goesTo (exec (.mul32 ⟨false, false, 15, 0x10, 0x11⟩) (regs [(0x10, 0x80000000), (0x11, 1)]))
      (fun s => s.cog.math.mulResult == 0xFFFFFFFF80000000) = true := by decide +kernel
/-- R729: 7 by -2 is -3, remainder 1. -/
theorem test_div32_1 :
    goesTo (exec (.div32 ⟨false, false, 15, 0x10, 0x11⟩) (regs [(0x10, 7), (0x11, 0xFFFFFFFE)]))
      (fun s => s.cog.math.divQuotient == 0xFFFFFFFD && s.cog.math.divRemainder == 1) = true := by decide +kernel
/-- R734: one third. -/
theorem test_frac_1 : goesTo (exec (.frac ⟨true, true, 15, 1, 3⟩) State.reset) (fun s => s.cog.math.divQuotient == 0x55555555) = true :=
  by
  decide +kernel
/-- R733: 2^32 by 3. -/
theorem test_div64u_1 :
    goesTo (exec (.div64u ⟨true, true, 15, 0, 1⟩) (inMath (fun m => { m with divDenominator := 3 }) State.reset))
      (fun s => s.cog.math.divQuotient == 0x55555555 && s.cog.math.divRemainder == 1) = true := by decide +kernel
/-- R738: the root of $FFFE0001. -/
theorem test_sqrt32_1 :
    goesTo (exec (.sqrt32 ⟨false, 15, 0x10⟩) (regs [(0x10,
          0xFFFE0001)])) (fun s => s.cog.math.sqrtResult == 0xFFFF) = true := by
  decide +kernel
/-- R746: the table's logarithm of 3 and power of $F8000000; R749: 35 clocks under QI = 0. -/
theorem test_qlog_1 : logOf 0 3 = 0x0CAE00D2 :=
  (@Config.logExp ⟨.witness⟩).logRows (3, 0x0CAE00D2) (by decide)
theorem test_qexp_1 : expOf 0 0xF8000000 = 0x80000000 :=
  (@Config.logExp ⟨.witness⟩).expRows (0xF8000000, 0x80000000) (by decide)
theorem test_qlog_2 : goesTo (exec (.qlog ⟨true, 15, 3⟩) State.reset) (fun s => s.cog.math.qLeft == 36) = true := by
  decide +kernel
/-- R761, R762: low 20 bits, signed: -524,288 squared, and $7FFFF times 1. -/
theorem test_macb_1 :
    goesTo (exec (.macb ⟨false, false, 15, 0x10, 0x11⟩) (regs [(0x10, 0x80000), (0x11, 0x80000)]))
      (fun s => s.cog.math.accb == 0x4000000000) = true := by decide +kernel
theorem test_maca_1 :
    goesTo (exec (.maca ⟨false, false, 15, 0x10, 0x11⟩) (regs [(0x10, 0xFFF7FFFF), (0x11,
          1)])) (fun s => s.cog.math.acca == 0x7FFFF) = true := by
  decide +kernel
/-- R768: SARACCS by 63 copies the sign. -/
theorem test_saraccs_1 :
    goesTo (exec (.saraccs ⟨true, 15, 63⟩) (inMath (fun m => { m with accb := 0xFFFFFFFF00000000 }) State.reset))
      (fun s => s.cog.math.accb == 0xFFFFFFFFFFFFFFFF) = true := by decide +kernel

/-- R782 to R785: pin 31, pin 32 and pin 127. -/
theorem test_setp_1 :
    goesTo (exec (.setp ⟨true, 15, 31⟩) State.reset) (fun s => s.cog.ports.out.e0 == 0x80000000
            && s.cog.ports.dir.e0 == 0x80000000) = true := by
  decide +kernel
theorem test_clrp_1 :
    goesTo (exec (.clrp ⟨true, 15, 32⟩) (regs [(0x1F9, 0xFFFFFFFF)]))
      (fun s => s.cog.ports.out.e1 == 0xFFFFFFFE && s.cog.ports.dir.e1 == 1) = true := by decide +kernel
theorem test_notp_1 :
    goesTo (exec (.notp ⟨true, 15, 127⟩) State.reset) (fun s => s.cog.ports.out.e3 == 0x80000000
            && s.cog.ports.dir.e3 == 0x80000000) = true := by
  decide +kernel
theorem test_offp_1 :
    goesTo (exec (.offp ⟨true, 15, 0⟩) (regs [(0x1FC, 0xFFFFFFFF), (0x1F8, 5)]))
      (fun s => s.cog.ports.out.e0 == 5 && s.cog.ports.dir.e0 == 0xFFFFFFFE) = true := by decide +kernel
/-- R803: D is for CTRB, S for CTRA. -/
theorem test_setfrqs_1 :
    goesTo (exec (.setfrqs ⟨true, true, 15, 5, 7⟩) State.reset) (fun s => s.cog.ctrb.frq == 5
            && s.cog.ctra.frq == 7) = true := by
  decide +kernel
/-- R835, R837, R840: the DAC settings. -/
theorem test_setdac1_1 :
    goesTo (exec (.setdac1 ⟨false, 15, 0x10⟩) (regs [(0x10, 0x12345678)]))
      (fun s => s.cog.dac.val.e1 == 0x48D1 && s.cog.dac.cfg.e1 == 0) = true := by decide +kernel
theorem test_setdacs_1 :
    goesTo (exec (.setdacs ⟨true, 15,
          0x80⟩) State.reset) (fun s => s.cog.dac.val == Quad.all 0x10100) = true := by decide +kernel
theorem test_cfgdacs_1 :
    goesTo (exec (.cfgdacs ⟨true, 15, 0b11100100⟩) State.reset) (fun s => s.cog.dac.cfg == ⟨0, 1, 2,
          3⟩) = true := by decide +kernel
/-- R861, R862: the receive period from the upper half of S, or from the lower. -/
theorem test_setsera_1 :
    goesTo (exec (.setsera ⟨true, false, 15, 0, 0x10⟩) (regs [(0x10, 0x30028)]))
      (fun s => s.cog.sera.txPeriod == 0x28 && s.cog.sera.rxPeriod == 3) = true := by decide +kernel
theorem test_setserb_1 :
    goesTo (exec (.setserb ⟨true, false, 15, 0, 0x10⟩) (regs [(0x10, 0x28)]))
      (fun s => s.cog.serb.txPeriod == 0x28 && s.cog.serb.rxPeriod == 0x28) = true := by decide +kernel
/-- R865: with WC an empty receiver answers C = 0 at once. -/
theorem test_serina_1 : goesTo (exec (.serina ⟨false, true, 15, 0x12⟩) State.reset) (fun s => !s.task.c) = true :=
  by decide +kernel

/-- R902: value from the upper word, delta from the lower. -/
theorem test_setpixu_1 :
    goesTo (exec (.setpixu ⟨false, 15, 0x10⟩) (regs [(0x10, 0xABCD0123)])) (fun s => s.cog.pix.u == ⟨0xABCD,
          0x123⟩) = true := by
  decide +kernel
/-- R918, R919, R922: the mixer register, its reset mode, a clamp, a word-mode step. -/
theorem test_setmix_1 :
    goesTo (exec (.setmix ⟨true, false, 15, 0x1FF, 0x11⟩) (regs [(0x11, 0x11223344)]))
      (fun s => s.cog.mix == ⟨0x1FF, 0x11, 0x22, 0x33, 0x44, false⟩) = true := by decide +kernel
theorem test_mixpix_1 :
    goesTo (exec (.mixpix ⟨false, 15, 0x10, 0x11⟩) (regs [(0x10, 0x01020304), (0x11, 0xA0B0C0D0)]))
      (fun s => reg 0x10 s == 0xA0B0C0D0) = true := by decide +kernel
theorem test_addpix_1 :
    goesTo (exec (.addpix ⟨false, 15, 0x10, 0x11⟩) (regs [(0x10, 0xFFFFFFFF), (0x11, 0x01010101)]))
      (fun s => reg 0x10 s == 0xFFFFFFFF) = true := by decide +kernel
theorem test_addpix_2 :
    goesTo (exec (.addpix ⟨false, 15, 0x10, 0x11⟩)
        (inCog (fun c => { c with mix := { c.mix with m := 0x100 } }) (regs [(0x10, 0x12340421), (0x11, 0x421)])))
      (fun s => reg 0x10 s == 0x08421234 && s.cog.mix.sel) = true := by decide +kernel
/-- R888: a generator that is on and has room. -/
theorem test_polvid_1 :
    goesTo (exec (.polvid ⟨true, true, 15⟩)
        (inCog (fun c => { c with vid := { c.vid with cfg := 0x20 }, ctra := { c.ctra with cfg := 1 } }) State.reset))
      (fun s => !s.task.z && s.task.c) = true := by decide +kernel

/-- R175, R931: under a mapping of eight registers selected by INDB the address 3 is 15; 4 is past the mapped ones. -/
theorem test_remap_1 :
    (let s := inCog (fun c => { c with remap := { c.remap with eff := 18 } }) (withIndb 19 0 0x1FF State.reset)
     s.cog.remapField 3 == 15 && s.cog.remapField 4 == 4) = true := by decide +kernel

/-- The first step of a program: the word placed for the fetch runs (R391), and the turn passes on. -/
theorem test_step_runs_placed_word :
    goesTo (step (State.reset.withFetchWord 32 0x407C21FF)) (fun s => s.cur == 1
            && (s.cogs.e0).ram.read zeroes 0x10 == 0x1FF) = true := by
  decide +kernel

/-- R1001: MOV at $000 writes $002 and $003; the words of $001 and $002 are fetched already, that of $003 is not. -/
theorem test_fetched_words_stay :
    (let behind : List Slot := [⟨5, 0, 1, false, false⟩, ⟨7, 0, 2, false, false⟩]
     goesTo (step (queued (⟨0x407C05FF, 0, 0, false, false⟩ :: behind) State.reset))
         (fun s => (s.cogs.e0.pipe.queue.map Slot.word).take 2 == [5, 7] && (s.cogs.e0).ram.read zeroes 2 == 0x1FF)
       && goesTo (step (queued (⟨0x407C07FF, 0, 0, false, false⟩ :: behind) State.reset))
         (fun s => s.cogs.e0.pipe.queue.map Slot.word == [5, 7, 0x1FF])) = true := by decide +kernel

/-- R951, R124: a register loaded with a ROM long is fetched as one; $1F2 and $1F3, which hold any word, never are. -/
theorem test_fetch_rom_long :
    (let s := inCog (fun c => { c with rom := BitVec.allOnes 512 }) State.reset
     [0x1F1#16, 0x1F2#16, 0x1F3#16].map (fun p => (s.fetch s.cog s.cog.icache p 0).map Fetched.rom)
       == [some true, some false, some false]) = true := by decide +kernel

/-- R1009: WRAUX takes a second clock where RDAUX is the next instruction in the pipeline. -/
theorem test_wraux_before_rdaux :
    (let next (i : Instr) : State := queued [⟨encode i, 0, 1, false, false⟩] State.reset
     let write : Instr := .wraux ⟨true, true, 0xF, 5, 5⟩
     goesTo (exec write (next (.rdaux ⟨false, false, true, 0xF, 5, 5⟩))) (fun s => s.cog.pipe.stall == 1)
       && goesTo (exec write (next (.add ⟨false, false, true, 0xF, 5, 5⟩))) (fun s => s.cog.pipe.stall == 0)) = true := by
  decide +kernel

/-- R975: TASK %10, HUB 1, FETCH 0, GO 1, COND 1, JUMP 0 and PC $1A5 on the low half of port A. -/
theorem test_trace_half :
    traceWord 0b1000 { task := 2, pc := 0x1A5, hub := true, fetch := false, go := true, cond := true, jump := false } 0 0 0
      = 0xADA5 := by decide +kernel

/-- R812, R880: the PLL of mode %00001 gives a dot clock when PHS[31] rises, and none while it stays. -/
theorem test_pll_reference :
    (let u : Ctr := { Ctr.start with cfg := 1 }
     (u.pllStep 0x80000000 0).dots == 1 && ((u.pllStep 0x80000000 0).pllStep 0xC0000000 0).dots == 0) = true := by
  decide +kernel

/-- R852, R854: after SETXFR #%1_001_000 the first pattern clock has WIDE0 on pins 31..0, the next WIDE1; with the unit off
there is nothing. -/
theorem test_xfr_pattern_clocks :
    (let wides : Octet Word := ⟨0xA0, 0xA1, 0xA2, 0xA3, 0xA4, 0xA5, 0xA6, 0xA7⟩
     let u : Xfr := { Xfr.start with cfg := 0b1001000 }
     u.driveNext wides [] 0 0 == 0xA0 && (u.tick wides [] 0 0).unit.driveNext wides [] 0 0 == 0xA1
       && { u with cfg := 0 }.driveNext wides [] 0 0 == 0) = true := by decide +kernel

/-- R1005, D18, R186: LOCINST INDA++,@1 and MOV $010,INDB-- step a pointer; MOV $010,#$1F3 does not, nor LOCKSET #$1F2, nor
CAPCTRA with $1F2 in its don't-care bits, nor a word of no row. -/
theorem test_words_that_step_indirect :
    ([0xFAA7E401, 0x400821F3, 0x407C21F3, 0xFE7FE482, 0xFE3FE50D, 0xFE27E431].map wordStepsInd
      == [true, true, false, false, false, false]) = true := by decide +kernel

/-- R890: the literal pixel and its SYNC byte; CLU4_RGB24 looks up the second field of S; STR32_RGB24 the third long. -/
theorem test_video_pixels :
    vidPixel 0 0x11223344 0 [] 0 = (0x112233, 0x44) ∧ vidPixel 0x40300000 0x21 1 [(0x42, 0x00AABBCC)] 0 = (0xAABBCC, 0)
      ∧ vidPixel 0x40F00000 3 2 [(0x45, 0x00AABBCC)] 0 = (0xAABBCC, 0) := by decide +kernel

/-- R880: a dot clock takes the buffered command and forms its signals; between dot clocks and over a SETVIDY they stay, and
the next dot clock forms them anew. -/
theorem test_video_dot_clocks :
    (let u : Vid := { Vid.start with cfg := 0b0100000, y := 0x05400000, i := 0x00004000, q := 0x00000040, next := some (2, 0x11223301) }
     let v := u.tick true 1 [] 0 0
     let w := { v with y := 0x06400000 }
     v.sig == ⟨511, 0x33, 0x22, 0x11 + 10⟩ && (w.tick true 0 [] 0 0).sig == v.sig
       && (w.tick true 1 [] 0 0).sig == ⟨511, 0x33, 0x22, 0x11 + 12⟩) = true := by decide +kernel

/-- R1005: behind a taken branch a REPS leaves INDA open too, by whatever free values; a NOP leaves it, and the repeater off. -/
theorem test_early_words :
    ([0xFAC00000, 0x00000000, 0x400821F3].map wordActsEarly == [true, false, true]) = true := by decide +kernel

/-- R891: with one coefficient of 64 per sum, the red, green and blue of a pixel; VGA sync asserted is !VCFG[0] * 511. -/
theorem test_video_component :
    (let u : Vid := { Vid.start with cfg := 0b0100000, y := 0x05400000, i := 0x00004000, q := 0x00000040 }
     u.signals 0x112233 1 == ⟨511, 0x33, 0x22, 0x11 + 10⟩) = true := by decide +kernel

/-! ### Witnesses: states and operands that meet the hypotheses of the statements

`Stand` is a state with the operands of an instruction and what must hold of them; `meets` is the hypothesis `stage4` with
it. Where a statement has several clauses, every clause has a witness, at a boundary value where it has a range. -/

structure Stand where
  s : State
  du : DUse
  su : SUse
  p : Operands → State → Bool := fun _ _ => true
  cond : BitVec 4 := 0xF

def Stand.meets (g : Stand) : Prop := ∃ o t, g.s.stage4 g.cond g.du g.su o t ∧ g.p o t = true

def Stand.check (g : Stand) : Bool :=
  match g.s.cog.pipe.waiting with
  | none => (forced g.du g.su || condHolds g.cond g.s.task.z g.s.task.c)
      && g.p (g.s.operands g.cond g.du g.su) (g.s.opened g.cond g.du g.su)
  | some w => g.p w.ops g.s

theorem Stand.meets_of_check (g : Stand) (h : g.check = true) : g.meets := by
  unfold Stand.check at h
  split at h
  · next e =>
    rw [Bool.and_eq_true] at h
    exact ⟨_, _, .inl ⟨⟨e, h.1⟩, rfl, rfl⟩, h.2⟩
  · next w e => exact ⟨_, _, .inr ⟨w, e, rfl, rfl⟩, h⟩

theorem all_meet (l : List Stand) (h : l.all Stand.check = true) : ∀ g ∈ l, g.meets := fun g m =>
  g.meets_of_check (List.all_eq_true.mp h g m)

/-! States of one kind each -/

def two (a b : Nat) : State := regs [(0x10, a), (0x11, b)]
/-- INDA points at $1F2, so that a D field of $1F2 resolves to it. -/
def pointed : State := withInda 0x1F2 0 0x1FF State.reset
def offHub (s : State) : State := inHub (fun h => { h with rot := 1 }) s
def multi (s : State) : State := inCog (fun c => { c with sched := { c.sched with task := 0xE4, slots := 0xE4 } }) s
def delayed (s : State) : State := inTask (fun k => { k with dlyCount := 3, dlyTarget := 0x40 }) s
def augS (s : State) : State := inTask (fun k => { k with augs := some 1 }) s
def augD (s : State) : State := inTask (fun k => { k with augd := some 1 }) s
/-- XFR runs in an AUX mode. -/
def xfrAux (s : State) : State := inCog (fun c => { c with xfr := { c.xfr with cfg := 0b1010000 } }) s
def stacked (n : Nat) (s : State) : State := inTask (fun k => { k with stack := List.replicate n 0x20011 }) s
/-- The instruction has been waiting in stage 4. -/
def held (d : RegAddr) (dv sv : Word) (pin : Bool) (s : State) : State :=
  inCog (fun c => { c with pipe := { c.pipe with waiting := some ⟨⟨d, dv, sv⟩, pin⟩, waited := 1 } }) s
/-- Pin 96, bit 0 of port D, is high. -/
def pinHigh (s : State) : State := inPorts (fun p => { p with d3 := 1, xch3 := 1 }) s

def usesAux (t : State) : Bool := t.cog.xfr.usesAux

/-! Decoding and stepping -/

theorem test_witness_DecodeOfEncodeIsIdentity :
    (Instr.rdbyte ⟨false, false, false, 1, 0, 0⟩).wellFormed = true ∧ (Instr.repd 0 ⟨true, 0xF,
          0x1FF⟩).wellFormed = true := by
  decide +kernel

theorem test_witness_DecodedInstructionIsWellFormed : decode 0 = .ok .nop ∧ decode 0xFFFFFE00 ≠ .ok .nop := by decide +kernel

/-- SINGLE words: of no row by their code, by bit 24, by bit 23, by bit 22; and with that bit where the row allows it. -/
theorem test_witness_UnassignedWordsAreExactlyRejected :
    (∀ n ∈ ([0x031, 0x03F, 0x0DD, 0x0F3, 0x11C, 0x1FF] : List (BitVec 9)),
        let w : Word := 0b1111111_00_0_1111_000000000#23 ++ n
        bits w 25 7 = 0b1111111#7 ∧ ((0x031 ≤ (bits w 0 9).toNat ∧ (bits w 0 9).toNat ≤ 0x03F)
          ∨ (0x0DD ≤ (bits w 0 9).toNat ∧ (bits w 0 9).toNat ≤ 0x0F3) ∨ 0x11C ≤ (bits w 0 9).toNat))
      ∧ (∀ c ∈ ([0b0000, 0b0110, 0b0111, 0b1001, 0b1101] : List (BitVec 4)),
        let w : Word := 0b1111110_000#10 ++ (c ++ 0x00205#18)
        bits w 25 7 = 0b1111110#7 ∧ bits w 22 3 = 0 ∧ bits w 18 4 = c)
      ∧ (bits 0xFBFFFFFF#32 25 7).toNat < 0b1111110 ∧ (bits 0#32 25 7).toNat < 0b1111110
      ∧ (bits 0xFCBC0200#32 25 7 = 0b1111110#7 ∧ decode 0xFCBC0200 = .ok (.jmpAbs ⟨0xF, 0x0200⟩))
      ∧ [0xFF000040#32, 0xFF0000DC#32, 0xFE800081#32, 0xFE800113#32].map decode = List.replicate 4 (.error .reservedFlags)
      ∧ [0xFE400000#32, 0xFE400030#32, 0xFE4000F4#32, 0xFE4000FF#32].map decode
          = List.replicate 4 (.error .reservedImmediate)
      ∧ [0xFF000000#32, 0xFF000100#32, 0xFE800082#32, 0xFE800114#32, 0xFE400040#32, 0xFE400100#32].all
          (fun w => bits w 25 7 == 0b1111111#7 && (decode w).isOk) = true := by decide +kernel

/-- A state about to fetch a word. -/
noncomputable def placed (w : Nat) : State := State.reset.withFetchWord 32 w

/-- The state in which the first instruction of the queue stands in stage 4. -/
noncomputable def inStage4 (s : State) : State :=
  match (s.filled s.cog).queue with
  | e :: rest => (s.setCog (s.prefetch s.cog)).loadWord e rest
  | [] => s

/-- Three instructions are in the queue, and the first has a property. -/
noncomputable def readyWith (s : State) (p : Slot → Bool) : Bool :=
  decide (s.cog.run = .running ∧ s.cog.pipe.stall = 0 ∧ s.cog.pipe.waiting = none)
    && match (s.filled s.cog).queue with | [e, _, _] => p e | _ => false

/-- It is such a word, and executes. -/
noncomputable def readyToRun (s : State) (w : Word) : Bool := readyWith s fun e => e.word == w && !e.cancelled && !e.rom

/-- MOV goes on, RET with an empty stack faults, PUSHZC is refused; a cancelled instruction; one of the ROM. -/
theorem test_witness_StepRunsTheDecodedInstruction_fetch :
    readyToRun (placed 0x407C21FF) 0x407C21FF = true
      ∧ decode 0x407C21FF = .ok (.mov ⟨false, false, true, 0xF, 0x10, 0x1FF⟩)
      ∧ isNext (exec (.mov ⟨false, false, true, 0xF, 0x10, 0x1FF⟩) (inStage4 (placed 0x407C21FF))) = true
      ∧ readyToRun (placed 0xFE3C0108) 0xFE3C0108 = true ∧ decode 0xFE3C0108 = .ok (.ret ⟨false, false, 0xF⟩)
      ∧ faultsAs (exec (.ret ⟨false, false, 0xF⟩) (inStage4 (placed 0xFE3C0108))) .stackUnderflow = true
      ∧ readyToRun (placed 0xFE3C2020) 0xFE3C2020 = true ∧ decode 0xFE3C2020 = .ok (.pushzc ⟨false, false, 0xF, 0x10⟩)
      ∧ refusedAs (exec (.pushzc ⟨false, false, 0xF, 0x10⟩) (inStage4 (placed 0xFE3C2020))) .flagStackUndescribed = true
      -- of no row: with a condition that holds, with one that fails, and of the IND pattern
      ∧ readyToRun (placed 0xFE3C0031) 0xFE3C0031 = true ∧ decode 0xFE3C0031 = .error .unassignedSingle
      ∧ condHolds 0xF false false = true
      ∧ readyToRun (placed 0xFE000031) 0xFE000031 = true ∧ decode 0xFE000031 = .error .unassignedSingle
      ∧ condHolds 0x0 false false = false
      ∧ readyToRun (placed 0xFC000000) 0xFC000000 = true ∧ decode 0xFC000000 = .error .unassignedInd
      ∧ readyWith (queued [⟨0, 0, 0, true, false⟩] State.reset) (fun e => e.cancelled) = true
      ∧ readyWith (queued [⟨0, 0, 0, false, true⟩] State.reset) (fun e => !e.cancelled && e.rom) = true := by decide +kernel

/-- The head of the queue: none was there; it stands; it is cancelled; it is of another address. -/
theorem test_witness_StepRunsTheDecodedInstruction_head :
    ∀ s ∈ [State.reset, queued [⟨7, 0, 0, false, false⟩] State.reset, queued [⟨7, 0, 9, true, false⟩] State.reset,
        queued [⟨7, 0, 9, false, false⟩] State.reset], ((s.filled s.cog).queue).length = 3 := by decide +kernel

/-- The same three standing in stage 4. -/
def standing (w : Word) : State :=
  inCog (fun c => { c with pipe := { c.pipe with ir := w } }) (held 0x10 1 2 false State.reset)
def standsInStage4 (w : Word) : Bool :=
  decide ((standing w).cog.run = .running ∧ (standing w).cog.pipe.stall = 0 ∧ (standing w).cog.pipe.ir = w)
    && (standing w).cog.pipe.waiting.isSome

theorem test_witness_StepRunsTheDecodedInstruction_waiting :
    standsInStage4 0x407C21FF = true ∧ standsInStage4 0xFE3C0108 = true ∧ standsInStage4 0xFE3C2020 = true
      ∧ isNext (exec (.mov ⟨false, false, true, 0xF, 0x10, 0x1FF⟩) (standing 0x407C21FF)) = true
      ∧ faultsAs (exec (.ret ⟨false, false, 0xF⟩) (standing 0xFE3C0108)) .stackUnderflow = true
      ∧ refusedAs (exec (.pushzc ⟨false, false, 0xF, 0x10⟩) (standing 0xFE3C2020)) .flagStackUndescribed = true := by
  decide +kernel

theorem test_witness_EveryStepKeepsTheStateWellFormed :
    State.reset.wf = true ∧ (placed 0x407C21FF).wf = true ∧ isNext (step State.reset) = true
      ∧ isNext (step (placed 0x407C21FF)) = true := by decide +kernel

theorem test_witness_NoStepChangesTheRom :
    State.reset.wf = true ∧ isNext (step State.reset) = true ∧ (0 : Nat) < 0x00E00 ∧ 0x00DFF < 0x00E00 := by decide +kernel

/-- The operand shapes of FailedConditionOnlyPassesOn, with the condition "never" and with one that C makes fail. -/
theorem test_witness_FailedConditionOnlyPassesOn :
    State.reset.enters ∧ ∀ c ∈ ([0b0000, 0b1100] : List (BitVec 4)), ∀ e ∈ ([(.reg 0x10, hubS true 0xC1), (.reg 0x10,
          auxS true 5),
        (.reg 0x10, si true 5), (.reg 0x10, sr true 5), (.raw 0, si false 0x11), (dl true 5, hubS false 0x11),
          (dl true 5, si true 5),
        (dl false 0x10, auxS true 5), (dl true 5, sr true 5), (.reg 0x10, .raw 0), (.raw 0, .raw 0), (dl true 5, .raw 0),
        (hubD true 5, .raw 0), (hubD false 0x10, .raw 0), (.raw 5, .raw 0)] : List (DUse × SUse)),
      State.reset.skips c e.1 e.2 := by decide +kernel

/-! Arithmetic, logic, bits and fields: a register D, and D resolved to $1F2; the inner conditions on the operands -/

theorem test_witness_BitAndLogicResults :
    ∀ g ∈ ([⟨two 5 3, .reg 0x10, si false 0x11, fun o _ => !isWindow o.d, 0xF⟩,
        ⟨pointed, .reg 0x1F2, si true 3, fun o _ => isWindow o.d, 0xF⟩] :
      List Stand), g.meets := all_meet _ (by decide +kernel)

theorem test_witness_ShiftInstructionResults :
    ∀ g ∈ ([⟨two 5 0, .reg 0x10, si false 0x11, fun o _ => (bits o.sv 0 5).toNat == 0 && !isWindow o.d, 0xF⟩,
        ⟨two 5 0x21, .reg 0x10, si false 0x11, fun o _ => (bits o.sv 0 5).toNat == 1, 0xF⟩,
        ⟨two 5 31, .reg 0x10, si false 0x11, fun o _ => (bits o.sv 0 5).toNat == 31, 0xF⟩,
        ⟨pointed, .reg 0x1F2, si true 3,
          fun o _ => isWindow o.d, 0xF⟩] : List Stand), g.meets := all_meet _ (by decide +kernel)

theorem test_witness_MoveAndLimitResults :
    ∀ g ∈ ([⟨two 5 0x80000000, .reg 0x10, si false 0x11, fun o _ => !isWindow o.d, 0xF⟩,
        ⟨pointed, .reg 0x1F2, si true 3,
          fun o _ => isWindow o.d, 0xF⟩] : List Stand), g.meets := all_meet _ (by decide +kernel)

/-- For the extended forms: a zero and a nonzero sum, with Z set. -/
theorem test_witness_SumInstructionResults :
    ∀ g ∈ ([⟨flags true true (two 0xFFFFFFFF 0), .reg 0x10, si false 0x11,
          fun o t => o.dv + o.sv + 1 == 0 && t.task.z && !isWindow o.d, 0xF⟩,
        ⟨flags true true (two 1 0), .reg 0x10, si false 0x11, fun o _ => o.dv - o.sv - 1 == 0 && o.dv + o.sv + 1 != 0, 0xF⟩,
        ⟨pointed, .reg 0x1F2, si true 3,
          fun o _ => isWindow o.d, 0xF⟩] : List Stand), g.meets := all_meet _ (by decide +kernel)

theorem test_witness_CountAndDecodeResults :
    ∀ g ∈ ([⟨two 5 31, .reg 0x10, si false 0x11, fun o _ => !isWindow o.d, 0xF⟩,
        ⟨pointed, .reg 0x1F2, si true 3, fun o _ => isWindow o.d, 0xF⟩] :
      List Stand), g.meets := all_meet _ (by decide +kernel)

theorem test_witness_FieldInstructionResults :
    ∀ g ∈ ([⟨two 5 31, .reg 0x10, si false 0x11, fun o _ => !isWindow o.d, 0xF⟩,
        ⟨pointed, .reg 0x1F2, si true 3, fun o _ => isWindow o.d, 0xF⟩] :
      List Stand), g.meets := all_meet _ (by decide +kernel)

theorem test_witness_TestInstructionFlags :
    ∀ g ∈ ([⟨flags true true (two 1 0), .reg 0x10, si false 0x11, fun o t => o.dv - o.sv - 1 == 0 && t.task.z, 0xF⟩,
        ⟨flags true true (two 5 0), .reg 0x10, si false 0x11,
          fun o _ => o.dv - o.sv - 1 != 0, 0xF⟩] : List Stand), g.meets :=
  all_meet _ (by decide +kernel)

theorem test_witness_UnaryAndOpenResults :
    ∀ g ∈ ([⟨two 5 3, .reg 0x10, .raw 0, fun o _ => !isWindow o.d, 0xF⟩,
        ⟨pointed, .reg 0x1F2, .raw 0, fun o _ => isWindow o.d, 0xF⟩,
        ⟨two 5 3, .reg 0x10, si false 0x11, fun o _ => !isWindow o.d, 0xF⟩,
        ⟨pointed, .reg 0x1F2, si true 3, fun o _ => isWindow o.d, 0xF⟩] :
      List Stand), g.meets := all_meet _ (by decide +kernel)

/-- D outside a mapped window for ADD; D inside it for CMP, which writes no register. For the reads: the first and the last
register of the window, its neighbours, and the first and last of every kind of register. -/
def windowAt10 (s : State) : State := inWide (fun w => { w with base := 0x010, mapped := true }) s
theorem test_witness_AluInstructionsFrame :
    (two 5 3).enters ∧ isNext (exec (.add ⟨true, true, false, 0xF, 0x18, 0x11⟩) (windowAt10 (two 5 3))) = true
      ∧ inWindow 0x010 true ((windowAt10 (two 5 3)).cog.dAddr 0xF (.reg 0x18)) = false
      ∧ isNext (exec (.cmp ⟨true, true, false, 0xF, 0x17, 0x11⟩) (windowAt10 (two 5 3))) = true
      ∧ isNext (exec (.onecnt ⟨true, false, 0xF, 0x10, 0x11⟩) (two 5 3)) = true
      ∧ isNext (exec (.incpat ⟨true, false, 0xF, 0x10, 0x11⟩) (two 5 3)) = true
      ∧ isNext (exec (.setnib 7 ⟨false, 0xF, 0x10, 0x11⟩) (two 5 3)) = true
      ∧ isNext (exec (.incd ⟨true, false, 0xF, 0x10⟩) (two 5 3)) = true
      ∧ (let w := (windowAt10 State.reset).cog.wide
         w.olds = [] ∧ w.oldWindows = [] ∧ w.moveLeft = 0 ∧ w.mapped = true
           ∧ [0x00F#9, 0x010#9, 0x017#9, 0x018#9].map (inWindow w.base w.mapped) = [false, true, true, false])
      ∧ [0x1F1#9, 0x1F4#9, 0x1F7#9, 0x1F8#9, 0x1FB#9, 0x1FC#9, 0x1FF#9].map (inWindow 0x010 true) = List.replicate 7 false := by
  decide +kernel

/-! Hub memory -/

theorem test_witness_PointerExpressionEvaluation :
    (0x0FF#9).getLsbD 8 = false ∧ (0x100#9).getLsbD 8 = true ∧ (0x1FF#9).getLsbD 8 = true := by decide

/-- In the hub cycle and off it, with a pointer and with a register that leaves AUGS pending; POPA and POPB. -/
theorem test_witness_HubReadResults :
    ∀ g ∈ ([⟨State.reset, .reg 0x10, hubS true 0x0C1, fun o t => t.task.augs.isNone && t.ownsHub && !isWindow o.d, 0xF⟩,
        ⟨offHub State.reset, .reg 0x10, hubS true 0x0C1, fun _ t => t.task.augs.isNone && !t.ownsHub, 0xF⟩,
        ⟨augS (two 5 3), .reg 0x10, hubS false 0x11, fun _ t => t.ownsHub, 0xF⟩,
        ⟨held 0x10 0 0x1FF false State.reset, .reg 0x10, hubS true 0x1FF, fun o t => o.sv == 0x1FF && t.ownsHub, 0xF⟩,
        ⟨pointed, .reg 0x1F2, hubS true 0x0C1, fun o t => isWindow o.d && t.ownsHub, 0xF⟩,
        ⟨State.reset, .reg 0x10, .raw 0x0BF, fun o t => o.sv == 0x0BF && t.task.augs.isNone && t.ownsHub, 0xF⟩,
        ⟨offHub State.reset, .reg 0x10, .raw 0x1BF, fun o t => o.sv == 0x1BF && t.task.augs.isNone && !t.ownsHub, 0xF⟩,
        ⟨State.reset, .reg 0x10, .raw 0x1BF, fun o t => o.sv == 0x1BF && t.ownsHub, 0xF⟩] : List Stand), g.meets :=
  all_meet _ (by decide +kernel)

def cached (s : State) : State := inWide (fun w => { w with valid := true, tag := 0 }) s
theorem test_witness_CachedReadResults :
    ∀ g ∈ ([⟨cached (two 0 0x1F), .reg 0x10, hubS false 0x11,
          fun o t => t.cog.wide.valid && bits (t.cog.hubUse false o.sv 1).addr 5 13 == t.cog.wide.tag && !isWindow o.d, 0xF⟩,
        ⟨cached (two 0 0x20), .reg 0x10, hubS false 0x11,
          fun o t => !(t.cog.wide.valid && bits (t.cog.hubUse false o.sv 1).addr 5 13 == t.cog.wide.tag) && t.ownsHub, 0xF⟩,
        ⟨offHub (two 0 0x1F), .reg 0x10, hubS false 0x11, fun _ t => !t.cog.wide.valid && !t.ownsHub, 0xF⟩,
        ⟨cached pointed, .reg 0x1F2, hubS false 0x11, fun o _ => isWindow o.d, 0xF⟩,
        ⟨State.reset, .reg 0x10, hubS true 0x0C1, fun _ t => t.task.augs.isNone, 0xF⟩] : List Stand), g.meets :=
  all_meet _ (by decide +kernel)

/-- The last ROM byte and the first RAM byte; PUSHA and PUSHB; off the hub cycle. -/
theorem test_witness_HubWriteResults :
    ∀ g ∈ ([⟨two 5 0xDFF, dl false 0x10, hubS false 0x11,
          fun o t => t.ownsHub && (t.cog.hubUse false o.sv 1).addr == 0xDFF, 0xF⟩,
        ⟨two 5 0xE00, dl false 0x10, hubS false 0x11,
          fun o t => t.ownsHub && (t.cog.hubUse false o.sv 1).addr == 0xE00, 0xF⟩,
        ⟨withPtra 0x3FFFF (two 5 0), dl true 0xFF, hubS true 0x0C1, fun _ t => t.ownsHub && t.task.augs.isNone, 0xF⟩,
        ⟨offHub (two 5 0xE00), dl false 0x10, hubS false 0x11, fun _ t => !t.ownsHub, 0xF⟩,
        ⟨two 5 0, dl true 5, .raw 0x0C1, fun o t => o.sv == 0x0C1 && t.ownsHub && t.task.augs.isNone, 0xF⟩,
        ⟨two 5 0, dl true 5, .raw 0x1C1, fun o t => o.sv == 0x1C1 && t.ownsHub && t.task.augs.isNone, 0xF⟩,
        ⟨offHub State.reset, dl true 5, .raw 0x1C1, fun o t => o.sv == 0x1C1 && !t.ownsHub, 0xF⟩] : List Stand), g.meets :=
  all_meet _ (by decide +kernel)

theorem test_witness_WideTransferResults :
    (∀ g ∈ ([⟨withPtra 0x1F (cached State.reset), hubD true 0x0C1, .raw 0,
            fun o t => t.task.augd.isNone && t.cog.wide.valid
            && bits (t.cog.hubUse true o.dv 32).addr 5 13 == t.cog.wide.tag && t.ownsHub, 0xF⟩,
          ⟨two 0x20 0, hubD false 0x10, .raw 0, fun _ t => !t.cog.wide.valid && t.ownsHub, 0xF⟩,
          ⟨offHub (two 0x20 0), hubD false 0x10, .raw 0,
          fun _ t => !t.cog.wide.valid && !t.ownsHub, 0xF⟩] : List Stand), g.meets)
      ∧ (0xDFF#18).toNat / 32 * 32 = 0xDE0 ∧ 0x00E00 ≤ (0xE1F#18).toNat / 32 * 32 := ⟨all_meet _ (by decide +kernel),
          by decide⟩

theorem test_witness_CacheAndWindowControl :
    ∀ g ∈ ([⟨State.reset, dl true 0x1F0, .raw 0, fun o _ => bits o.dv 0 9 == 0x1F0, 0xF⟩,
        ⟨State.reset, dl true 0x1F8, .raw 0, fun o _ => bits o.dv 0 9 == 0x1F8, 0xF⟩,
        ⟨State.reset, dl true 0x1F1, .raw 0, fun o _ => bits o.dv 0 9 != 0x1F0 && bits o.dv 0 9 != 0x1F8, 0xF⟩,
        ⟨State.reset, dl true 0x1E8, .raw 0, fun o _ => bits o.dv 0 9 != 0x1F0 && bits o.dv 0 9 != 0x1F8, 0xF⟩,
        ⟨State.reset, .raw 0, .raw 0, fun _ _ => true, 0xF⟩] : List Stand), g.meets := all_meet _ (by decide +kernel)

theorem test_witness_PointerInstructions :
    ∀ g ∈ ([⟨two 5 3, .reg 0x10, .raw 0, fun o _ => !isWindow o.d, 0xF⟩,
        ⟨pointed, .reg 0x1F2, .raw 0, fun o _ => isWindow o.d, 0xF⟩,
        ⟨State.reset, dl true 5, .raw 0, fun _ t => !usesAux t, 0xF⟩,
        ⟨xfrAux State.reset, dl true 5, .raw 0, fun _ t => usesAux t, 0xF⟩,
        ⟨State.reset, .raw 0, .raw 0,
          fun _ t => t.task.augs.isNone, 0xF⟩] : List Stand), g.meets := all_meet _ (by decide +kernel)

/-! Hub control -/

def cogIs (k : Fin 8) (r : RunState) (t : State) : Bool := (t.cogs.get k).run == r

/-- Cog 1 idle behind cog 0; cog 7 idle behind all others; no cog idle; off the hub cycle. -/
theorem test_witness_CogStartResults :
    (∀ g ∈ ([⟨two 0xE00 0, .reg 0x10, si true 0,
          fun o t => t.ownsHub && !isWindow o.d && cogIs 1 .idle t && !cogIs 0 .idle t, 0xF⟩,
          ⟨alsoRunning [1, 2, 3, 4, 5, 6] (two 0xE00 0), .reg 0x10, si true 0,
            fun _ t => t.ownsHub && cogIs 7 .idle t && (List.finRange 7).all fun j => !cogIs j.castSucc .idle t, 0xF⟩,
          ⟨alsoRunning [1, 2, 3, 4, 5, 6, 7] State.reset, .reg 0x10, si true 0,
            fun _ t => t.ownsHub && (List.finRange 8).all fun j => !cogIs j .idle t, 0xF⟩,
          ⟨offHub State.reset, .reg 0x10, si true 0, fun _ t => !t.ownsHub, 0xF⟩,
          ⟨pointed, .reg 0x1F2, si true 0, fun o t => t.ownsHub && isWindow o.d && t.cur == 0, 0xF⟩] : List Stand), g.meets)
      ∧ (0x1F3#9).toNat < 0x1F4 := ⟨all_meet _ (by decide +kernel), by decide⟩

theorem test_witness_CogClockAndLockControl :
    ∀ g ∈ ([⟨State.reset, .reg 0x10, .raw 0, fun o t => t.ownsHub && !isWindow o.d, 0xF⟩,
        ⟨pointed, .reg 0x1F2, .raw 0, fun o t => t.ownsHub && isWindow o.d, 0xF⟩,
        ⟨offHub State.reset, .reg 0x10, .raw 0, fun _ t => !t.ownsHub, 0xF⟩,
        ⟨State.reset, dl true 7, .raw 0, fun o t => t.ownsHub && (bits o.dv 0 3).toFin != t.cur, 0xF⟩,
        ⟨State.reset, dl true 0x06B, .raw 0, fun o t => t.ownsHub && !o.dv.getLsbD 8 && !clockOff (bits o.dv 0 9), 0xF⟩,
        ⟨State.reset, dl true 0x00F, .raw 0, fun o t => t.ownsHub && !o.dv.getLsbD 8 && clockOff (bits o.dv 0 9), 0xF⟩,
        ⟨State.reset, dl true 0x0F2, .raw 0, fun o t => t.ownsHub && !o.dv.getLsbD 8 && clockOff (bits o.dv 0 9), 0xF⟩,
        ⟨State.reset, dl true 8, .raw 0, fun o t => t.ownsHub && (bits o.dv 0 3).toFin == t.cur, 0xF⟩,
        ⟨State.reset, dl true 0x100, .raw 0, fun o t => t.ownsHub && o.dv.getLsbD 8, 0xF⟩,
        ⟨offHub State.reset, dl true 0x100, .raw 0, fun _ t => !t.ownsHub, 0xF⟩,
        ⟨inHub (fun h => { h with lockTaken := (Octet.all true).set 7 false }) State.reset, .reg 0x10, .raw 0,
          fun _ t => t.ownsHub && !t.hub.lockTaken.get 7
            && (List.finRange 7).all fun j => t.hub.lockTaken.get j.castSucc, 0xF⟩,
        ⟨inHub (fun h => { h with lockTaken := Octet.all true }) State.reset, .reg 0x10, .raw 0,
          fun _ t => t.ownsHub && (List.finRange 8).all fun j => t.hub.lockTaken.get j, 0xF⟩] : List Stand), g.meets :=
  all_meet _ (by decide +kernel)

/-! INDA, INDB and AUX -/

theorem test_witness_IndirectPointerForms :
    ∀ r ∈ [ind 8 8 15, ind 15 8 15, ind 0 0 0x1FF, ind 0x1FF 0 0x1FF, ind 9 9 9],
      r.bot.toNat ≤ r.ptr.toNat ∧ r.ptr.toNat ≤ r.top.toNat := by decide +kernel

theorem test_witness_AuxAccessResults :
    ∀ g ∈ ([⟨State.reset, .reg 0x10, auxS true 0x0FF, fun o t => t.task.augs.isNone && !usesAux t && !isWindow o.d, 0xF⟩,
        ⟨State.reset, .reg 0x10, auxS true 0x100, fun _ t => t.task.augs.isNone && !usesAux t, 0xF⟩,
        ⟨augS (two 0 5), .reg 0x10, auxS false 0x11, fun _ t => !usesAux t, 0xF⟩,
        ⟨xfrAux State.reset, .reg 0x10, auxS true 5, fun _ t => usesAux t, 0xF⟩,
        ⟨pointed, .reg 0x1F2, auxS true 5, fun o t => isWindow o.d && !usesAux t, 0xF⟩,
        ⟨State.reset, dl true 5, auxS true 0x1FF, fun _ t => t.task.augs.isNone && !usesAux t, 0xF⟩,
        ⟨xfrAux State.reset, dl true 5, auxS false 0x11, fun _ t => usesAux t, 0xF⟩,
        ⟨State.reset, .reg 0x10, .raw 0x15F, fun o t => o.sv == 0x15F && t.task.augs.isNone && !usesAux t, 0xF⟩,
        ⟨State.reset, .reg 0x10, .raw 0x1DF, fun o t => o.sv == 0x1DF && t.task.augs.isNone && !usesAux t, 0xF⟩,
        ⟨xfrAux State.reset, .reg 0x10, .raw 0x1DF, fun o t => o.sv == 0x1DF && usesAux t, 0xF⟩,
        ⟨State.reset, dl true 5, .raw 0x161, fun o t => o.sv == 0x161 && t.task.augs.isNone && !usesAux t, 0xF⟩,
        ⟨State.reset, dl true 5, .raw 0x1E1, fun o t => o.sv == 0x1E1 && t.task.augs.isNone && !usesAux t, 0xF⟩,
        ⟨xfrAux State.reset, dl true 5, .raw 0x161, fun o t => o.sv == 0x161 && usesAux t, 0xF⟩] : List Stand), g.meets :=
  all_meet _ (by decide +kernel)

theorem test_witness_AuxPointerReads :
    ∀ g ∈ ([⟨State.reset, .reg 0x10, .raw 0, fun o _ => !isWindow o.d, 0xF⟩,
        ⟨pointed, .reg 0x1F2, .raw 0, fun o _ => isWindow o.d, 0xF⟩,
        ⟨State.reset, .raw 0, .raw 0, fun _ _ => true, 0xF⟩] : List Stand), g.meets := all_meet _ (by decide +kernel)

/-! Tasks, repeat blocks, CNT and waiting -/

def twoTasks : List Slot := [⟨7, 1, 1, false, false⟩, ⟨7, 2, 2, false, false⟩]
theorem test_witness_TaskControl :
    (∀ g ∈ ([⟨State.reset, .reg 0x10, .raw 0, fun o _ => !isWindow o.d, 0xF⟩,
        ⟨pointed, .reg 0x1F2, .raw 0, fun o _ => isWindow o.d, 0xF⟩,
          ⟨State.reset, dl true 0xE4, .raw 0, fun _ _ => true, 0xF⟩,
          ⟨multi (queued twoTasks State.reset), dl true 0b0110, si true 0x40,
          fun o t => !o.dv.getLsbD 0 && o.dv.getLsbD 1 && t.cog.cur == 0 && t.cog.pipe.queue.length == 2
            && !wordActsEarly 7, 0xF⟩,
          ⟨queued [⟨7, 0, 1, false, false⟩, ⟨7, 0, 2, true, false⟩] State.reset, dl true 0b0001, si true 0x40,
          fun o t => o.dv.getLsbD 0 && t.cog.taskLater 3 == 0 && t.cog.pipe.queue.length == 2, 0xF⟩] :
        List Stand), g.meets)
      ∧ Sched.start.q1 = none ∧ Sched.start.q2 = none ∧ Sched.start.q3 = none ∧ Sched.start.q4 = none ∧ (1 : Fin 8) ≠ State.reset.cur :=
  ⟨all_meet _ (by decide +kernel), by decide⟩

theorem test_witness_RepeatInstructionsLoadTheRepeater :
    (∀ g ∈ ([⟨regs [(0x10, 0xFFFF)], dl false 0x10, .raw 0, fun o t => o.dv.toNat == 0xFFFF && t.task.dlyCount == 0, 0xF⟩,
          ⟨regs [(0x10, 0x10000)], dl false 0x10, .raw 0, fun o _ => o.dv.toNat == 0x10000, 0xF⟩,
          ⟨delayed State.reset, dl true 5, .raw 0, fun _ t => t.task.dlyCount != 0, 0xF⟩,
          ⟨State.reset, .raw 0, .raw 0, fun _ t => t.task.dlyCount == 0, 0xF⟩,
          ⟨delayed State.reset, .raw 0, .raw 0, fun _ t => t.task.dlyCount != 0, 0xF⟩] : List Stand), g.meets)
      ∧ State.reset.task.augs = none ∧ State.reset.task.dlyCount = 0 ∧ (delayed State.reset).task.augs = none
      ∧ (delayed State.reset).task.dlyCount ≠ 0 := ⟨all_meet _ (by decide +kernel), by decide +kernel⟩

def block (left : Passes) : Task := { Task.start 0x12 with rep := ⟨true, 0x12, 0x15, left⟩ }
theorem test_witness_RepeatBlockRunsItsPasses :
    ∀ k ∈ [block (.count 0), block (.count 3), block .infinite],
      k.rep.active = true ∧ k.pc = k.rep.first ∧ k.dlyCount = 0 ∧ k.rep.first.toNat ≤ k.rep.last.toNat
        ∧ k.rep.last.toNat + 1 < 2 ^ 16 := by decide

theorem test_witness_BranchesRedirectTheTask :
    (1 : Fin 4) ≠ State.reset.cog.cur ∧ wordActsEarly 7 = false ∧ State.reset.cog.taskLater 3 = State.reset.cog.cur
      ∧ twoTasks.length = 2 ∧ ∀ e ∈ twoTasks, e.task ≠ State.reset.cog.cur := by decide +kernel

def armed (t : State) : Bool := decide (t.cog.chain.left = 1 ∧ t.cog.chain.task = t.cog.cur)
theorem test_witness_CounterReads :
    ∀ g ∈ ([⟨State.reset, .reg 0x10, .raw 0, fun o t => !armed t && !isWindow o.d, 0xF⟩,
        ⟨inCog (fun c => { c with chain := ⟨1, 0, true⟩ }) State.reset, .reg 0x10, .raw 0, fun _ t => armed t, 0xF⟩,
        ⟨pointed, .reg 0x1F2, .raw 0, fun o _ => isWindow o.d, 0xF⟩,
        ⟨State.reset, dl true 5, .raw 0, fun _ t => !armed t, 0xF⟩,
        ⟨inCog (fun c => { c with chain := ⟨1, 0, true⟩ }) State.reset, dl true 5, .raw 0,
          fun _ t => armed t, 0xF⟩] : List Stand),
      g.meets := all_meet _ (by decide +kernel)

def lastIs (v : Word) (s : State) : State := inCog (fun c => { c with lastD := v }) s
def timesOut (t : State) : Bool := decide (bits t.hub.cnt 0 32 = t.cog.lastD)
def level (t : State) (o : Operands) : Bool := t.pinIn t.cog (bits o.dv 0 7)
/-- Port D under a mask, against D, and pin 96, with and without the time-out; the edge waits both on entry and held. -/
theorem test_witness_WaitInstructions :
    ∀ g ∈ ([⟨withCnt 0x7FFFFFFF State.reset, dl true 0, .raw 0, fun o t => !(bits t.hub.cnt 0 32 - o.dv).getLsbD 31, 0xF⟩,
        ⟨withCnt 0x80000000 State.reset, dl true 0, .raw 0, fun o t => (bits t.hub.cnt 0 32 - o.dv).getLsbD 31, 0xF⟩,
        ⟨withCnt 0x200000005 (lastIs 2 (two 5 1)), .reg 0x10, si false 0x11,
          fun o t => bits t.hub.cnt 0 32 == o.dv && t.hub.cnt == t.cog.lastD ++ o.dv && !isWindow o.d, 0xF⟩,
        ⟨withCnt 4 (two 5 1), .reg 0x10, si false 0x11,
          fun o t => bits t.hub.cnt 0 32 != o.dv && t.hub.cnt != t.cog.lastD ++ o.dv, 0xF⟩,
        ⟨withInda 0x1F2 0 0x1FF State.reset, .reg 0x1F2, si true 1, fun o _ => isWindow o.d, 0xF⟩,
        ⟨lastIs 1 (pinHigh (two 1 1)), .reg 0x10, si false 0x11,
          fun o t => (t.pinLong t.cog 3 &&& o.sv == o.dv) && !timesOut t, 0xF⟩,
        ⟨pinHigh (two 1 1), .reg 0x10, si false 0x11, fun o t => (t.pinLong t.cog 3 &&& o.sv == o.dv) && timesOut t, 0xF⟩,
        ⟨lastIs 1 (two 1 1), .reg 0x10, si false 0x11, fun o t => (t.pinLong t.cog 3 &&& o.sv != o.dv) && !timesOut t, 0xF⟩,
        ⟨two 1 1, .reg 0x10, si false 0x11, fun o t => (t.pinLong t.cog 3 &&& o.sv != o.dv) && timesOut t, 0xF⟩,
        ⟨State.reset, dl true 0x60, .raw 0, fun o t => !level t o, 0xF⟩,
        ⟨lastIs 1 (pinHigh (held 0 0x60 0 false State.reset)), dl true 0x60, .raw 0,
          fun o t => level t o && !timesOut t, 0xF⟩,
        ⟨pinHigh (held 0 0x60 0 false State.reset), dl true 0x60, .raw 0, fun o t => level t o && timesOut t, 0xF⟩,
        ⟨lastIs 1 (held 0 0x60 0 true State.reset), dl true 0x60, .raw 0, fun o t => !level t o && !timesOut t, 0xF⟩,
        ⟨held 0 0x60 0 true State.reset, dl true 0x60, .raw 0, fun o t => !level t o && timesOut t, 0xF⟩,
        ⟨lastIs 1 (held 0 0x60 0 false State.reset), dl true 0x60, .raw 0, fun o t => !level t o && !timesOut t, 0xF⟩,
        ⟨held 0 0x60 0 false State.reset, dl true 0x60, .raw 0,
          fun o t => !level t o && timesOut t, 0xF⟩] : List Stand), g.meets :=
  all_meet _ (by decide +kernel)

/-! Branches -/

def free (t : State) : Bool := t.task.dlyCount == 0
theorem test_witness_JumpResults :
    ∀ g ∈ ([⟨State.reset, .raw 0, .raw 0, fun _ t => t.task.augs.isNone && free t, 0xF⟩,
        ⟨delayed State.reset, .raw 0, .raw 0, fun _ t => t.task.augs.isNone && !free t, 0xF⟩,
        ⟨State.reset, .reg 0x10, .raw 0, fun _ t => free t, 0xF⟩,
        ⟨delayed State.reset, .reg 0x10, .raw 0, fun _ t => !free t, 0xF⟩,
        ⟨two 1 0x40, .reg 0x10, sr false 0x11, fun o t => o.dv - 1 == 0 && o.dv != 0 && free t && !isWindow o.d, 0xF⟩,
        ⟨two 0 0x40, .reg 0x10, sr true 0x1FF, fun o t => o.dv == 0 && o.dv - 1 != 0 && free t, 0xF⟩,
        ⟨two 0xFFFFFFFF 0x40, .reg 0x10, sr false 0x11, fun o t => o.dv + 1 == 0 && free t, 0xF⟩,
        ⟨delayed (two 1 0x40), .reg 0x10, sr false 0x11, fun _ t => !free t, 0xF⟩,
        ⟨inTask (fun k => { k with rep := ⟨true, 0, 3, .infinite⟩ }) (two 1 0x40), .reg 0x10, sr false 0x11,
          fun _ t => t.task.inBlock, 0xF⟩,
        -- a block that runs from $FFFF on to $0000
        ⟨inTask (fun k => { k with rep := ⟨true, 0xFFFE, 1, .infinite⟩ }) (two 1 0x40), .reg 0x10, sr false 0x11,
          fun _ t => t.task.inBlock, 0xF⟩,
        ⟨two 1 0x40, .reg 0x10, sr false 0x11, fun _ t => !t.task.inBlock, 0xF⟩,
        ⟨pointed, .reg 0x1F2, sr false 0x11, fun o _ => isWindow o.d, 0xF⟩,
        ⟨State.reset, dl true 0x60, sr true 5, fun o t => !level t o && free t, 0xF⟩,
        ⟨pinHigh State.reset, dl true 0x60, sr true 5, fun o t => level t o && free t, 0xF⟩] : List Stand), g.meets :=
  all_meet _ (by decide +kernel)

theorem test_witness_CallResults :
    ∀ g ∈ ([⟨stacked 3 State.reset, .raw 0, .raw 0,
          fun _ t => t.task.augs.isNone && free t && t.task.stack.length == 3, 0xF⟩,
        ⟨stacked 4 State.reset, .raw 0, .raw 0, fun _ t => t.task.augs.isNone && t.task.stack.length == 4, 0xF⟩,
        ⟨delayed State.reset, .raw 0, .raw 0, fun _ t => t.task.augs.isNone && !free t, 0xF⟩,
        ⟨withPtra 0xDFF State.reset, .raw 0, .raw 0, fun _ t => t.ownsHub && t.task.augs.isNone && t.cog.ptra == 0xDFF, 0xF⟩,
        ⟨withPtra 0xE00 State.reset, .raw 0, .raw 0, fun _ t => t.ownsHub && t.task.augs.isNone && t.cog.ptra == 0xE00, 0xF⟩,
        ⟨offHub State.reset, .raw 0, .raw 0, fun _ t => !t.ownsHub && t.task.augs.isNone, 0xF⟩,
        ⟨State.reset, .raw 0, .raw 0, fun _ t => !usesAux t && t.task.augs.isNone, 0xF⟩,
        ⟨xfrAux State.reset, .raw 0, .raw 0, fun _ t => usesAux t && t.task.augs.isNone, 0xF⟩,
        ⟨stacked 3 State.reset, .reg 0x10, .raw 0,
          fun _ t => free t && t.ownsHub && !usesAux t && t.task.stack.length == 3, 0xF⟩,
        ⟨stacked 4 (xfrAux State.reset), .reg 0x10, .raw 0, fun _ t => usesAux t && t.task.stack.length == 4, 0xF⟩,
        ⟨offHub State.reset, .reg 0x10, .raw 0,
          fun _ t => !t.ownsHub, 0xF⟩] : List Stand), g.meets := all_meet _ (by decide +kernel)

theorem test_witness_ReturnResults :
    ∀ g ∈ ([⟨stacked 1 State.reset, .raw 0, .raw 0,
          fun _ t => t.task.stack == [0x20011] && free t && t.ownsHub && !usesAux t, 0xF⟩,
        ⟨State.reset, .raw 0, .raw 0, fun _ t => t.task.stack == [], 0xF⟩,
        ⟨offHub State.reset, .raw 0, .raw 0, fun _ t => !t.ownsHub, 0xF⟩,
        ⟨xfrAux State.reset, .raw 0, .raw 0, fun _ t => usesAux t, 0xF⟩,
        ⟨delayed (stacked 4 State.reset), .raw 0, .raw 0, fun _ t => !free t, 0xF⟩] : List Stand), g.meets :=
  all_meet _ (by decide +kernel)

def caller : State :=
  flags true true (withPtra 0xE00 (withPtrb 0xE00 (atPc 5 (regs [(0x10, 0x40)]))))
/-- A state that may run a return. -/
def ranOn (s : State) : State := inTask (fun k => { k with dlyCount := 0 }) s
/-- A call from address 5 with both flags set, and its two returns in the state the call left (a delayed call's branch
done). -/
def returns (call ret retd : Instr) : Bool :=
  isNext (exec call caller) && isNext (exec ret (ranOn (stateAfter (exec call caller))))
    && isNext (exec retd (ranOn (stateAfter (exec call caller))))
def returner (call : Instr) : State := ranOn (stateAfter (exec call caller))
/-- The ten forms of a call; an absolute and a relative one, a register one, and the delayed ones. -/
def undone (ret retd : Instr) (calls : List Instr) : Bool :=
  calls.all fun c => returns c ret retd && (returner c).ownsHub
    && decide ((returner c).executes 0xF (.raw 0) (.raw 0))
theorem test_witness_ReturnUndoesCall :
    caller.executes 0xF (.raw 0) (.raw 0) ∧ caller.executes 0xF (.reg 0x10) (.raw 0) ∧ caller.ownsHub = true
      ∧ 0x00E00 ≤ caller.cog.ptra.toNat ∧ 0x00E00 ≤ caller.cog.ptrb.toNat
      ∧ undone (.ret ⟨true, true, 0xF⟩) (.retd ⟨true, true, 0xF⟩) [.callAbs ⟨0xF, 0x40⟩, .callRel ⟨0xF, 0x40⟩,
          .calldAbs ⟨0xF, 0x40⟩, .calldRel ⟨0xF, 0x40⟩, .callReg ⟨false, false, 0xF, 0x10⟩, .calldReg ⟨true, true, 0xF, 0x10⟩] = true
      ∧ undone (.reta ⟨true, true, 0xF⟩) (.retad ⟨true, true, 0xF⟩) [.callaAbs ⟨0xF, 0x40⟩, .callaRel ⟨0xF, 0x40⟩,
          .calladAbs ⟨0xF, 0x40⟩, .calladRel ⟨0xF, 0x40⟩, .callaReg ⟨false, false, 0xF, 0x10⟩, .calladReg ⟨true, true, 0xF, 0x10⟩] = true
      ∧ undone (.retb ⟨true, true, 0xF⟩) (.retbd ⟨true, true, 0xF⟩) [.callbAbs ⟨0xF, 0x40⟩, .callbRel ⟨0xF, 0x40⟩,
          .callbdAbs ⟨0xF, 0x40⟩, .callbdRel ⟨0xF, 0x40⟩, .callbReg ⟨false, false, 0xF, 0x10⟩, .callbdReg ⟨true, true, 0xF, 0x10⟩] = true
      ∧ undone (.retx ⟨true, true, 0xF⟩) (.retxd ⟨true, true, 0xF⟩) [.callxAbs ⟨0xF, 0x40⟩, .callxRel ⟨0xF, 0x40⟩,
          .callxdAbs ⟨0xF, 0x40⟩, .callxdRel ⟨0xF, 0x40⟩, .callxReg ⟨false, false, 0xF, 0x10⟩, .callxdReg ⟨true, true, 0xF, 0x10⟩] = true
      ∧ undone (.rety ⟨true, true, 0xF⟩) (.retyd ⟨true, true, 0xF⟩) [.callyAbs ⟨0xF, 0x40⟩, .callyRel ⟨0xF, 0x40⟩,
          .callydAbs ⟨0xF, 0x40⟩, .callydRel ⟨0xF, 0x40⟩, .callyReg ⟨false, false, 0xF, 0x10⟩, .callydReg ⟨true, true, 0xF, 0x10⟩] = true := by
  decide +kernel

theorem test_witness_ThreadSwitchResults :
    (∀ g ∈ ([⟨two 0 0x30040, .reg 0x10, sr false 0x11, fun o t => !isWindow o.d && free t, 0xF⟩,
          ⟨delayed (two 0 0x30040), .reg 0x10, sr false 0x11, fun o t => !isWindow o.d && !free t, 0xF⟩,
          ⟨pointed, .reg 0x1F2, sr false 0x11, fun o _ => isWindow o.d, 0xF⟩,
          ⟨withIndb 0x13 0x10 0x13 State.reset, .reg 0x1F3, .reg 0x1F3,
          fun o t => o.d == 0x13 && !isWindow o.d && free t, 0b0011⟩,
          ⟨withIndb 0x1F2 0x10 0x1F2 State.reset, .reg 0x1F3, .reg 0x1F3,
          fun o _ => isWindow o.d, 0b0011⟩] : List Stand), g.meets)
      ∧ State.reset.enters := ⟨all_meet _ (by decide +kernel), by decide +kernel⟩

/-- The largest sum that fits 18 bits, and the next. -/
theorem test_witness_AddressInstructionResults :
    ∀ g ∈ ([⟨two 3 0xFFFF, .reg 0x10, sr false 0x11,
          fun o _ => (o.dv + 0x3FFFC#32).toNat == 2 ^ 18 - 1 && !isWindow o.d, 0xF⟩,
        ⟨two 4 0xFFFF, .reg 0x10, sr false 0x11, fun o _ => (o.dv + 0x3FFFC#32).toNat == 2 ^ 18, 0xF⟩,
        ⟨pointed, .reg 0x1F2, sr false 0x11, fun o _ => isWindow o.d, 0xF⟩,
        ⟨State.reset, .reg 0x10, .raw 0, fun o _ => !isWindow o.d, 0xF⟩,
        ⟨pointed, .reg 0x1F2, .raw 0, fun o _ => isWindow o.d, 0xF⟩] : List Stand), g.meets := all_meet _ (by decide +kernel)

theorem test_witness_TaskStackInstructions :
    ∀ g ∈ ([⟨stacked 3 State.reset, dl true 5, .raw 0, fun _ t => t.task.stack.length == 3, 0xF⟩,
        ⟨stacked 4 State.reset, dl true 5, .raw 0, fun _ t => t.task.stack.length == 4, 0xF⟩,
        ⟨stacked 1 State.reset, .reg 0x10, .raw 0, fun o t => t.task.stack == [0x20011] && !isWindow o.d, 0xF⟩,
        ⟨State.reset, .reg 0x10, .raw 0, fun _ t => t.task.stack == [], 0xF⟩,
        ⟨stacked 1 pointed, .reg 0x1F2, .raw 0,
          fun o t => isWindow o.d && t.task.stack == [0x20011], 0xF⟩] : List Stand), g.meets :=
  all_meet _ (by decide +kernel)

theorem test_witness_SetzcLoadsTheFlags :
    ∀ g ∈ ([⟨State.reset, dl true 2, .raw 0, fun o _ => o.dv == 2, 0xF⟩,
        ⟨two 1 0, dl false 0x10, .raw 0, fun o _ => o.dv == 1, 0xF⟩] :
      List Stand), g.meets := all_meet _ (by decide +kernel)

theorem test_witness_FlagStackInstructionsStop :
    ∀ g ∈ ([⟨State.reset, .reg 0x10, .raw 0, fun _ _ => true, 0xF⟩,
        ⟨held 0x10 0 0 false State.reset, .reg 0x10, .raw 0, fun _ _ => true, 0xF⟩] :
      List Stand), g.meets := all_meet _ (by decide +kernel)

theorem test_witness_PendingAugIsRefused :
    (∀ g ∈ ([⟨augS State.reset, .reg 0x10, hubS true 0x0C1, fun _ t => t.task.augs.isSome, 0xF⟩,
          ⟨augS State.reset, .reg 0x10, auxS true 5, fun _ t => t.task.augs.isSome, 0xF⟩,
          ⟨augS State.reset, dl true 5, hubS true 0x0C1, fun _ t => t.task.augs.isSome, 0xF⟩,
          ⟨augS State.reset, dl false 0x10, auxS true 5, fun _ t => t.task.augs.isSome, 0xF⟩,
          ⟨augS State.reset, .raw 0, .raw 0, fun _ t => t.task.augs.isSome, 0xF⟩,
          ⟨augD State.reset, .raw 5, .raw 0, fun _ t => t.task.augd.isSome, 0xF⟩,
          ⟨augD State.reset, .raw 0, si true 5, fun _ t => t.task.augd.isSome, 0xF⟩] : List Stand), g.meets)
      ∧ (augS State.reset).task.augs ≠ none := ⟨all_meet _ (by decide +kernel), by decide +kernel⟩

/-! Math engines -/

def busy (s : State) : State :=
  inMath (fun m => { m with mulLeft := 1, divLeft := 1, sqrtLeft := 1, qLeft := 1, macLeft := 1 }) s
def idle (t : State) : Bool :=
  t.cog.math.mulLeft == 0 && t.cog.math.divLeft == 0 && t.cog.math.sqrtLeft == 0 && t.cog.math.qLeft == 0
def divBy (den : Nat) (s : State) : State := inMath (fun m => { m with divDenominator := BitVec.ofNat 32 den }) s
/-- Quotients -2^31 and 2^31 - 1 fit, signed; a fraction with D = S - 1; 64-bit numerators; a square and its neighbour. -/
theorem test_witness_EngineStartResults :
    ∀ g ∈ ([⟨two 0x80000000 1, dl false 0x10, si false 0x11,
          fun o t => idle t && o.sv.toInt != 0 && o.dv.toInt.tdiv o.sv.toInt == -2 ^ 31, 0xF⟩,
        ⟨two 0x7FFFFFFF 1, dl false 0x10, si false 0x11, fun o t => idle t && o.dv.toInt.tdiv o.sv.toInt == 2 ^ 31 - 1, 0xF⟩,
        ⟨two 0xFFFFFFFF 1, dl false 0x10, si false 0x11,
          fun o t => idle t && (o.dv.toNat : Int).tdiv o.sv.toNat == 2 ^ 32 - 1, 0xF⟩,
        ⟨two 2 3, dl false 0x10, si false 0x11, fun o t => idle t && decide (o.dv.toNat < o.sv.toNat), 0xF⟩,
        ⟨divBy 1 (two 0x80000000 0xFFFFFFFF), dl false 0x10, si false 0x11,
          fun o t => idle t && (o.sv ++ o.dv).toInt.tdiv t.cog.math.divDenominator.toInt == -2 ^ 31, 0xF⟩,
        ⟨divBy 2 (two 0xFFFFFFFF 1), dl false 0x10, si false 0x11,
          fun o t => idle t && ((o.sv ++ o.dv).toNat : Int).tdiv t.cog.math.divDenominator.toNat == 2 ^ 32 - 1, 0xF⟩,
        ⟨two 0 1, dl false 0x10, si false 0x11,
          fun o t => idle t && Nat.sqrt 4294967296 * 65536 == (o.sv ++ o.dv).toNat, 0xF⟩,
        ⟨busy (two 2 3), dl false 0x10, si false 0x11, fun _ t => !idle t, 0xF⟩,
        ⟨two 0xFFFE0001 0, dl false 0x10, .raw 0, fun o t => idle t && o.dv.toNat == 65535 * 65535, 0xF⟩,
        ⟨busy State.reset, dl true 5, .raw 0,
          fun _ t => !idle t, 0xF⟩] : List Stand), g.meets := all_meet _ (by decide +kernel)

def qi (v : BitVec 6) (s : State) : State := inMath (fun m => { m with qi := v }) s
def qiIs (v : BitVec 6) (t : State) : Bool := t.cog.math.qi == v && idle t
theorem test_witness_CordicStartResults :
    ∀ g ∈ ([⟨State.reset, dl true 3, .raw 0, fun o t => qiIs 0 t && o.dv == 3, 0xF⟩,
        ⟨two 0xFFFFFFFF 0, dl false 0x10, .raw 0, fun o t => qiIs 0 t && o.dv == 0xFFFFFFFF, 0xF⟩,
        ⟨qi 31 State.reset, dl true 3, .raw 0, fun _ t => qiIs 31 t, 0xF⟩,
        ⟨busy State.reset, dl true 3, .raw 0, fun _ t => !idle t, 0xF⟩,
        ⟨State.reset, dl true 3, si true 0x7F, fun o t => qiIs 0 t && o.sv.toNat == 0x7F, 0xF⟩,
        ⟨State.reset, dl true 3, si true 0x09, fun o t => qiIs 0 t && o.sv.toNat == 0x09, 0xF⟩,
        ⟨State.reset, dl true 3, si true 0x29, fun o t => qiIs 0 t && o.sv.toNat == 0x29, 0xF⟩,
        ⟨augS State.reset, dl true 3, si true 0x09, fun o t => qiIs 0 t && o.sv.toNat == 0x209, 0xF⟩,
        ⟨qi 5 State.reset, dl true 3, si true 0, fun o t => qiIs 5 t && o.sv.toNat == 0, 0xF⟩,
        ⟨qi 0x21 State.reset, dl true 3, si true 0x7F, fun o t => qiIs 0x21 t && o.sv.toNat == 0x7F, 0xF⟩,
        ⟨qi 0x20 State.reset, dl true 3, si true 1, fun o t => qiIs 0x20 t && o.sv.toNat == 1, 0xF⟩,
        ⟨qi 0x20 State.reset, dl true 3, si true 31, fun o t => qiIs 0x20 t && o.sv.toNat == 31, 0xF⟩,
        ⟨two 3 4, dl false 0x10, si false 0x11, fun _ t => qiIs 0 t, 0xF⟩,
        ⟨busy State.reset, dl true 3, si true 1,
          fun _ t => !idle t, 0xF⟩] : List Stand), g.meets := all_meet _ (by decide +kernel)

theorem test_witness_EngineResultReads :
    ∀ g ∈ ([⟨State.reset, .reg 0x10, .raw 0, fun o t => idle t && !isWindow o.d, 0xF⟩,
        ⟨pointed, .reg 0x1F2, .raw 0, fun o t => idle t && isWindow o.d, 0xF⟩,
        ⟨busy State.reset, .reg 0x10, .raw 0, fun _ t => !idle t && !t.cog.multiTask, 0xF⟩,
        ⟨multi (busy State.reset), .reg 0x10, .raw 0, fun _ t => !idle t && t.cog.multiTask && free t, 0xF⟩,
        ⟨delayed (multi (busy State.reset)), .reg 0x10, .raw 0,
          fun _ t => !idle t && t.cog.multiTask && !free t, 0xF⟩] : List Stand),
      g.meets := all_meet _ (by decide +kernel)

def macIdle (t : State) : Bool := t.cog.math.macLeft == 0
theorem test_witness_AccumulatorInstructions :
    ∀ g ∈ ([⟨two 5 3, dl false 0x10, si false 0x11, fun _ _ => true, 0xF⟩,
        ⟨State.reset, .raw 0, .raw 0, fun _ _ => true, 0xF⟩,
        ⟨State.reset, dl true 63, .raw 0, fun _ t => macIdle t, 0xF⟩,
        ⟨busy State.reset, dl true 63, .raw 0, fun _ t => !macIdle t, 0xF⟩,
        ⟨State.reset, .reg 0x10, .raw 0, fun o t => macIdle t && !isWindow o.d, 0xF⟩,
        ⟨pointed, .reg 0x1F2, .raw 0, fun o t => macIdle t && isWindow o.d, 0xF⟩,
        ⟨busy State.reset, .reg 0x10, .raw 0,
          fun _ t => !macIdle t, 0xF⟩] : List Stand), g.meets := all_meet _ (by decide +kernel)

/-! Pins, counters, DACs, transfer, serial -/

theorem test_witness_PinInstructions :
    ∀ g ∈ ([⟨State.reset, dl true 0x7F, .raw 0, fun o _ => bits o.dv 0 7 == 0x7F, 0xF⟩,
        ⟨State.reset, dl true 0, .raw 0, fun _ _ => true, 0xF⟩,
        ⟨State.reset, dl true 5, si true 7, fun _ _ => true, 0xF⟩] : List Stand), g.meets := all_meet _ (by decide +kernel)

def rolls (s : State) : State :=
  inCog (fun c => { c with ctra := { c.ctra with rolling := true }, ctrb := { c.ctrb with rolling := true } }) s
theorem test_witness_CounterInstructions :
    ∀ g ∈ ([⟨State.reset, dl true 5, .raw 0, fun _ _ => true, 0xF⟩,
        ⟨State.reset, dl true 5, si true 7, fun _ _ => true, 0xF⟩,
        ⟨State.reset, .reg 0x10, .raw 0, fun o _ => !isWindow o.d, 0xF⟩,
        ⟨pointed, .reg 0x1F2, .raw 0, fun o _ => isWindow o.d, 0xF⟩,
        ⟨inCog (fun c => { c with ctra := { c.ctra with adding := true }, ctrb := { c.ctrb with subbing := true } }) State.reset,
          dl true 5, si true 7, fun _ t => t.cog.ctra.adding && t.cog.ctrb.subbing, 0xF⟩,
        ⟨rolls State.reset, .raw 0, .raw 0, fun _ t => t.cog.ctra.rolling && t.cog.ctrb.rolling, 0xF⟩,
        ⟨State.reset, .raw 0, .raw 0, fun _ t => !t.cog.ctra.rolling && !t.cog.multiTask, 0xF⟩,
        ⟨multi State.reset, .raw 0, .raw 0,
          fun _ t => !t.cog.ctrb.rolling && t.cog.multiTask && free t, 0xF⟩] : List Stand), g.meets :=
  all_meet _ (by decide +kernel)

theorem test_witness_UnitConfiguration :
    ∀ g ∈ ([⟨State.reset, dl true 0x1FF, .raw 0, fun _ _ => true, 0xF⟩,
        ⟨State.reset, .raw 0x1FF, .raw 0, fun _ t => t.task.augd.isNone, 0xF⟩,
        ⟨augD (two 5 3), .reg 0x10, .raw 0, fun _ _ => true, 0xF⟩,
        ⟨augD State.reset, dl true 0x1FF, .raw 0, fun o _ => o.dv == 0x3FF, 0xF⟩,
        ⟨State.reset, dl true 0x48, si true 0, fun _ _ => true, 0xF⟩] : List Stand),
      g.meets := all_meet _ (by decide +kernel)

/-- Mappings off, of one register, of 4 times 128 and of 128 times 4, and past the table; fields at both sides of 2^RRR. -/
theorem test_witness_UnitConfiguration_mapping :
    [0b0_000_111#7, 0b0_001_000#7, 0b0_010_111#7, 0b1_111_010#7, 0b0_111_111#7].map
        (fun m => ((bits m 3 3).toNat, 2 ^ (bits m 0 3).toNat, decide ((bits m 3 3).toNat + (bits m 0 3).toNat ≤ 9)))
      = [(0, 128, true), (1, 1, true), (2, 128, true), (7, 4, true), (7, 128, false)]
      ∧ (0x000#9).toNat < 1 ∧ 1 ≤ (0x001#9).toNat ∧ (0x07F#9).toNat < 128 ∧ 128 ≤ (0x080#9).toNat := by decide

def ser (f : Ser → Ser) (s : State) : State := inCog (fun c => { c with sera := f c.sera, serb := f c.serb }) s
def rxPeriod (o : Operands) : BitVec 16 := if bits o.sv 16 16 = 0 then bits o.sv 0 16 else bits o.sv 16 16
def badSer (o : Operands) : Bool :=
  decide ((bits o.dv 7 2 ≠ 0 ∧ bits o.sv 0 16 = 0) ∨ (bits o.dv 16 2 ≠ 0 ∧ rxPeriod o = 0))
/-- An enabled transmitter with period 0 and with 1; a receiver whose period stands in the upper half; ready, busy,
          full, empty. -/
theorem test_witness_SerialInstructions :
    ∀ g ∈ ([⟨two 0x80 0, dl false 0x10, si false 0x11, fun o _ => badSer o, 0xF⟩,
        ⟨two 0x80 1, dl false 0x10, si false 0x11, fun o t => !badSer o && !t.cog.sera.txBusy, 0xF⟩,
        ⟨two 0x10000 0x10000, dl false 0x10, si false 0x11, fun o _ => !badSer o && rxPeriod o == 1, 0xF⟩,
        ⟨two 0 0, dl false 0x10, si false 0x11, fun o _ => !badSer o, 0xF⟩,
        ⟨ser (fun u => { u with cfg := 0x80 }) State.reset, dl true 5, .raw 0,
          fun _ t => bits t.cog.sera.cfg 7 2 != 0 && !t.cog.sera.txBusy, 0xF⟩,
        ⟨ser (fun u => { u with cfg := 0x80, txBusy := true }) State.reset, dl true 5, .raw 0,
          fun _ t => bits t.cog.serb.cfg 7 2 != 0 && t.cog.serb.txBusy && !t.cog.multiTask, 0xF⟩,
        ⟨multi (ser (fun u => { u with cfg := 0x80, txBusy := true }) State.reset), dl true 5, .raw 0,
          fun _ t => t.cog.multiTask && free t, 0xF⟩,
        ⟨ser (fun u => { u with rxFull := true }) State.reset, .reg 0x10, .raw 0,
          fun o t => t.cog.sera.rxFull && t.cog.serb.rxFull && !isWindow o.d, 0xF⟩,
        ⟨State.reset, .reg 0x10, .raw 0, fun _ t => !t.cog.sera.rxFull && !t.cog.multiTask, 0xF⟩,
        ⟨multi State.reset, .reg 0x10, .raw 0,
          fun _ t => !t.cog.serb.rxFull && t.cog.multiTask, 0xF⟩] : List Stand), g.meets :=
  all_meet _ (by decide +kernel)

/-! Video, texture, mixer -/

def videoOn (s : State) : State :=
  inCog (fun c => { c with vid := { c.vid with cfg := 0x20 }, ctra := { c.ctra with cfg := 1 } }) s
def clocked (t : State) : Bool :=
  bits t.cog.vid.cfg 5 2 != 0 && bits t.cog.ctra.cfg 3 2 == 0 && bits t.cog.ctra.cfg 0 3 != 0
/-- Room and none, the generator on and clocked; the immediate form. -/
theorem test_witness_VideoInstructions :
    ∀ g ∈ ([⟨State.reset, dl true 5, .raw 0, fun _ _ => true, 0xF⟩,
        ⟨videoOn State.reset, .reg 0x10, si true 5, fun _ t => clocked t && t.cog.vid.next.isNone, 0xF⟩,
        ⟨videoOn (inCog (fun c => { c with vid := { c.vid with next := some (1, 2) } }) State.reset), .reg 0x10, si true 5,
          fun _ t => clocked t && t.cog.vid.next.isSome && !t.cog.multiTask, 0xF⟩,
        ⟨multi (videoOn (inCog (fun c => { c with vid := { c.vid with next := some (1, 2) } }) State.reset)), .raw 0,
          si true 5,
          fun _ t => t.task.augd.isNone && t.cog.multiTask && free t, 0xF⟩,
        ⟨videoOn State.reset, .raw 0, .raw 0,
          fun _ t => clocked t, 0xF⟩] : List Stand), g.meets := all_meet _ (by decide +kernel)

def prepare (cfg : Word) (s : State) : State :=
  inCog (fun c => { c with pipe := { c.pipe with took1 := 3, took2 := 3 }, pix := { c.pix with cfg := cfg } }) s
def isPrepared (t : State) : Bool := decide (t.cog.sched.task = 0 ∧ 3 ≤ t.cog.pipe.took1 ∧ 3 ≤ t.cog.pipe.took2)
/-- Base registers $1F1 (the last that texels may come from) and $1F2; a mirror; unprepared by one clock; plain settings. -/
theorem test_witness_TextureInstructions :
    ∀ g ∈ ([⟨State.reset, dl true 5, .raw 0, fun _ _ => true, 0xF⟩, ⟨State.reset, .raw 0, .raw 0, fun _ _ => true, 0xF⟩,
        ⟨prepare 0x1F1 State.reset, .reg 0x10, .raw 0,
          fun o t => isPrepared t && t.cog.pix.register == 0x1F1 && t.cog.mix.m == 1 && !t.cog.opq.pixw
            && !isWindow o.d, 0xF⟩,
        ⟨prepare 0x1F2 State.reset, .reg 0x10, .raw 0, fun _ t => isPrepared t && t.cog.pix.register == 0x1F2, 0xF⟩,
        ⟨prepare 0x2001F2 State.reset, .reg 0x10, .raw 0, fun _ t => isPrepared t && bits t.cog.pix.cfg 21 2 != 0, 0xF⟩,
        ⟨inCog (fun c => { c with mix := { c.mix with m := 0x100 } }) (prepare 0 State.reset), .reg 0x10, .raw 0,
          fun o t => isPrepared t && t.cog.pix.register == 0 && t.cog.mix.m.getLsbD 8 && !isWindow o.d, 0xF⟩,
        ⟨xfrAux (prepare 0 State.reset), .reg 0x10, .raw 0, fun _ t => isPrepared t && usesAux t, 0xF⟩,
        ⟨prepare 0 State.reset, .reg 0x10, .raw 0, fun _ t => isPrepared t, 0b0011⟩,
        ⟨inCog (fun c => { c with pipe := { c.pipe with took1 := 3, took2 := 2 } }) State.reset, .reg 0x10, .raw 0,
          fun _ t => !isPrepared t, 0xF⟩,
        ⟨prepare 0 pointed, .reg 0x1F2, .raw 0, fun o t => isPrepared t && isWindow o.d, 0xF⟩] : List Stand), g.meets :=
  all_meet _ (by decide +kernel)

theorem test_witness_PixelMixerResults :
    ∀ g ∈ ([⟨State.reset, dl true 5, si true 5, fun _ _ => true, 0xF⟩,
        ⟨two 5 3, .reg 0x10, si false 0x11, fun o t => !t.cog.mix.m.getLsbD 8 && !isWindow o.d, 0xF⟩,
        ⟨inCog (fun c => { c with mix := { c.mix with m := 0x100 } }) (two 5 3), .reg 0x10, si false 0x11,
          fun _ t => t.cog.mix.m.getLsbD 8, 0xF⟩,
        ⟨pointed, .reg 0x1F2, si true 3,
          fun o _ => isWindow o.d, 0xF⟩] : List Stand), g.meets := all_meet _ (by decide +kernel)

/-- One instruction of each group goes on; the hub stores both in their hub cycle and while they wait. -/
theorem test_witness_UnitAndControlInstructionsFrame :
    (two 5 0xE00).enters ∧ (∀ i ∈ ([.setmap ⟨true, 0xF, 5⟩, .setp ⟨true, 0xF, 5⟩, .repd 3 ⟨true, 0xF, 5⟩,
          .dcachex ⟨0xF⟩, .nop, .mul32 ⟨false, false, 0xF, 0x10, 0x11⟩,
        .waitvidImm 5 ⟨false, 0xF, 0x11⟩, .fixinda ⟨15, 8⟩, .getcnt ⟨true, true, 0xF, 0x10⟩, .rdbyte ⟨true, true,
          false, 0xF, 0x10, 0x11⟩,
        .switch, .jz ⟨false, 0xF, 0x10, 0x11⟩, .locinst ⟨0xF, 0x10, 0x11⟩, .waitcnt ⟨true, 0xF, 0x10, 0x11⟩,
          .waitpeq 3 ⟨false, false, 0xF, 0x10, 0x11⟩,
        .cmpcnt ⟨true, true, 0xF, 5⟩, .setzc ⟨true, true, true, 0xF, 5⟩, .polvid ⟨true, true, 0xF⟩, .jmpAbs ⟨0xF,
          0x40⟩, .jmpReg ⟨true, true, 0xF, 0x10⟩,
        .callaAbs ⟨0xF, 0x40⟩, .callxReg ⟨true, true, 0xF, 0x10⟩, .pusha ⟨true, 0xF, 5⟩, .wrlong ⟨false, false, 0xF,
          0x10, 0x11⟩,
        .wraux ⟨false, false, 0xF, 0x10, 0x11⟩, .wrwide ⟨false, 0xF, 0x11⟩] : List Instr),
      isNext (exec i (videoOn (two 5 0xE00))) = true)
      ∧ isNext (exec (.wrlong ⟨false, false, 0xF, 0x10, 0x11⟩) (offHub (two 5 0xE00))) = true
      ∧ isNext (exec (.wrlong ⟨false, false, 0xF, 0x10, 0x11⟩) (held 0x10 5 0xE00 false State.reset)) = true := by
  decide +kernel

end Sys2Proof.Tests
end

section
/-!
PROOFS. The flag instructions of 44_branches.md: SETZC loads Z and C (R513); PUSHZC and POPZC, listed without an effect,
stop (R514, R515).
-/

set_option Elab.async false

namespace Sys2Proof.Laws

open Sys2Proof

/-! ### Words and their fields -/

/-- Each bit of a word lies in the field that R172 gives its place to. -/
theorem getLsbD_join (f : Fields) (i : Nat) :
    f.join.getLsbD i = if i < 9 then f.s.getLsbD i else if i < 18 then f.d.getLsbD (i - 9)
      else if i < 22 then f.cond.getLsbD (i - 18) else if i < 23 then (BitVec.ofBool f.b22).getLsbD (i - 22)
      else if i < 24 then (BitVec.ofBool f.b23).getLsbD (i - 23)
      else if i < 25 then (BitVec.ofBool f.b24).getLsbD (i - 24) else f.op.getLsbD (i - 25) := by
  simp only [Fields.join, BitVec.getLsbD_append]
  grind

/-- The seven fields of R172 do not overlap, and none is lost in the word. -/
theorem split_join (f : Fields) : Fields.split f.join = f := by
  have hop : f.join.extractLsb' 25 7 = f.op := BitVec.eq_of_getLsbD_eq fun i hi => by grind [getLsbD_join]
  have hcond : f.join.extractLsb' 18 4 = f.cond := BitVec.eq_of_getLsbD_eq fun i hi => by grind [getLsbD_join]
  have hd : f.join.extractLsb' 9 9 = f.d := BitVec.eq_of_getLsbD_eq fun i hi => by grind [getLsbD_join]
  have hs : f.join.extractLsb' 0 9 = f.s := BitVec.eq_of_getLsbD_eq fun i hi => by grind [getLsbD_join]
  have h24 : f.join.getLsbD 24 = f.b24 := (getLsbD_join f 24).trans (by simp)
  have h23 : f.join.getLsbD 23 = f.b23 := (getLsbD_join f 23).trans (by simp)
  have h22 : f.join.getLsbD 22 = f.b22 := (getLsbD_join f 22).trans (by simp)
  rw [Fields.split, hop, h24, h23, h22, hcond, hd, hs]

/-- A constructor that is well-formed and whose fields are read back is what its word decodes to. -/
theorem RoundTrip.Statement.decode_encode {i : Instr} (h : RoundTrip.Statement i) (hwf : i.wellFormed = true) :
    decode (encode i) = .ok i := by
  rw [decode, encode, split_join]
  exact h hwf

end Sys2Proof.Laws

namespace Sys2Proof.Machine

open Sys2Proof

variable {s t : State} {o : Operands}

/-! ### What the three instructions answer in stage 4 -/

theorem exec_setzc (f : SingleZCL) (s : State) : exec (.setzc f) s = execSetzc f s := rfl

theorem exec_pushzc (f : SingleZC) (s : State) : exec (.pushzc f) s = execPushzc f s := rfl

theorem exec_popzc (f : SingleZC) (s : State) : exec (.popzc f) s = execPopzc f s := rfl

theorem exec_setzc_stage4 {f : SingleZCL} (h : s.stage4 f.cond (dl f.l f.d) (.raw 0) o t) :
    exec (.setzc f) s = .next (t.ends (t.cog.setFlags f.wz f.wc (o.dv.getLsbD 1) (o.dv.getLsbD 0)) 0) := by
  rw [exec_setzc, execSetzc, State.withOperands_stage4 h, State.putFlags_eq]

theorem exec_pushzc_stage4 {f : SingleZC} (h : s.stage4 f.cond (.reg f.d) (.raw 0) o t) :
    exec (.pushzc f) s = .refused .flagStackUndescribed := by
  rw [exec_pushzc, execPushzc, State.withOperands_stage4 h]

theorem exec_popzc_stage4 {f : SingleZC} (h : s.stage4 f.cond (.reg f.d) (.raw 0) o t) :
    exec (.popzc f) s = .refused .flagStackUndescribed := by
  rw [exec_popzc, execPopzc, State.withOperands_stage4 h]

/-! ### The obligations -/

/-- Settles O45: the word is the encoder's, and in stage 4 SETZC writes the flags of D and ends. -/
theorem setzcLoadsTheFlags : Obligations.SetzcLoadsTheFlags := by
  intro f
  have hword : decode (encode (.setzc f)) = .ok (.setzc f) := (Laws.RoundTrip.setzc f).decode_encode rfl
  exact ⟨hword, fun _ _ _ h => exec_setzc_stage4 h⟩

/-- Settles O47: both words are the encoder's, and in stage 4 both instructions answer the refusal of U46. -/
theorem flagStackInstructionsStop : Obligations.FlagStackInstructionsStop := by
  intro f
  have hpush : decode (encode (.pushzc f)) = .ok (.pushzc f) := (Laws.RoundTrip.pushzc f).decode_encode rfl
  have hpop : decode (encode (.popzc f)) = .ok (.popzc f) := (Laws.RoundTrip.popzc f).decode_encode rfl
  exact ⟨hpush, hpop, fun _ _ _ h => ⟨exec_pushzc_stage4 h, exec_popzc_stage4 h⟩⟩

end Sys2Proof.Machine
end

section
/-!
PROOFS. The decoder and the encoder: decoding undoes encoding, what is read is well-formed, and exactly the words of R195
are rejected (30_encoding.md).
-/

set_option Elab.async false

namespace Sys2Proof.Laws

open Sys2Proof Sys2Proof.Machine

/-- Every constructor is read back from the fields it is written with; one row lemma each. -/
theorem roundTrip : ∀ i : Instr, RoundTrip.Statement i
  | .rdbyte f => RoundTrip.rdbyte f | .rdbytec f => RoundTrip.rdbytec f | .rdword f => RoundTrip.rdword f
  | .rdwordc f => RoundTrip.rdwordc f | .rdlong f => RoundTrip.rdlong f | .rdlongc f => RoundTrip.rdlongc f
  | .rdaux f => RoundTrip.rdaux f | .rdauxr f => RoundTrip.rdauxr f | .isob f => RoundTrip.isob f
  | .notb f => RoundTrip.notb f | .clrb f => RoundTrip.clrb f | .setb f => RoundTrip.setb f
  | .setbc f => RoundTrip.setbc f | .setbnc f => RoundTrip.setbnc f | .setbz f => RoundTrip.setbz f
  | .setbnz f => RoundTrip.setbnz f | .andn f => RoundTrip.andn f | .and f => RoundTrip.and f
  | .or f => RoundTrip.or f | .xor f => RoundTrip.xor f | .muxc f => RoundTrip.muxc f
  | .muxnc f => RoundTrip.muxnc f | .muxz f => RoundTrip.muxz f | .muxnz f => RoundTrip.muxnz f
  | .ror f => RoundTrip.ror f | .rol f => RoundTrip.rol f | .shr f => RoundTrip.shr f
  | .shl f => RoundTrip.shl f | .rcr f => RoundTrip.rcr f | .rcl f => RoundTrip.rcl f
  | .sar f => RoundTrip.sar f | .rev f => RoundTrip.rev f | .mov f => RoundTrip.mov f
  | .not f => RoundTrip.not f | .abs f => RoundTrip.abs f | .neg f => RoundTrip.neg f
  | .negc f => RoundTrip.negc f | .negnc f => RoundTrip.negnc f | .negz f => RoundTrip.negz f
  | .negnz f => RoundTrip.negnz f | .add f => RoundTrip.add f | .sub f => RoundTrip.sub f
  | .addx f => RoundTrip.addx f | .subx f => RoundTrip.subx f | .adds f => RoundTrip.adds f
  | .subs f => RoundTrip.subs f | .addsx f => RoundTrip.addsx f | .subsx f => RoundTrip.subsx f
  | .sumc f => RoundTrip.sumc f | .sumnc f => RoundTrip.sumnc f | .sumz f => RoundTrip.sumz f
  | .sumnz f => RoundTrip.sumnz f | .min f => RoundTrip.min f | .max f => RoundTrip.max f
  | .mins f => RoundTrip.mins f | .maxs f => RoundTrip.maxs f | .addabs f => RoundTrip.addabs f
  | .subabs f => RoundTrip.subabs f | .incmod f => RoundTrip.incmod f | .decmod f => RoundTrip.decmod f
  | .cmpsub f => RoundTrip.cmpsub f | .subr f => RoundTrip.subr f | .mul f => RoundTrip.mul f
  | .scl f => RoundTrip.scl f | .decod2 f => RoundTrip.decod2 f | .decod3 f => RoundTrip.decod3 f
  | .decod4 f => RoundTrip.decod4 f | .decod5 f => RoundTrip.decod5 f | .encod f => RoundTrip.encod f
  | .blmask f => RoundTrip.blmask f | .onecnt f => RoundTrip.onecnt f | .zercnt f => RoundTrip.zercnt f
  | .incpat f => RoundTrip.incpat f | .decpat f => RoundTrip.decpat f | .splitb f => RoundTrip.splitb f
  | .mergeb f => RoundTrip.mergeb f | .splitw f => RoundTrip.splitw f | .mergew f => RoundTrip.mergew f
  | .getnib n f => RoundTrip.getnib n f | .setnib n f => RoundTrip.setnib n f
  | .getword n f => RoundTrip.getword n f | .setword n f => RoundTrip.setword n f
  | .setwrds f => RoundTrip.setwrds f | .rolnib f => RoundTrip.rolnib f | .rolbyte f => RoundTrip.rolbyte f
  | .rolword f => RoundTrip.rolword f | .sets f => RoundTrip.sets f | .setd f => RoundTrip.setd f
  | .setx f => RoundTrip.setx f | .seti f => RoundTrip.seti f | .cognew f => RoundTrip.cognew f
  | .waitcnt f => RoundTrip.waitcnt f | .waitcntWc f => RoundTrip.waitcntWc f
  | .getbyte n f => RoundTrip.getbyte n f | .setbyte n f => RoundTrip.setbyte n f
  | .setbyts f => RoundTrip.setbyts f | .movbyts f => RoundTrip.movbyts f | .packrgb f => RoundTrip.packrgb f
  | .unpkrgb f => RoundTrip.unpkrgb f | .addpix f => RoundTrip.addpix f | .mulpix f => RoundTrip.mulpix f
  | .blnpix f => RoundTrip.blnpix f | .mixpix f => RoundTrip.mixpix f | .jmpsw f => RoundTrip.jmpsw f
  | .jmpswd f => RoundTrip.jmpswd f | .ijz f => RoundTrip.ijz f | .ijzd f => RoundTrip.ijzd f
  | .ijnz f => RoundTrip.ijnz f | .ijnzd f => RoundTrip.ijnzd f | .djz f => RoundTrip.djz f
  | .djzd f => RoundTrip.djzd f | .djnz f => RoundTrip.djnz f | .djnzd f => RoundTrip.djnzd f
  | .testb f => RoundTrip.testb f | .testn f => RoundTrip.testn f | .test f => RoundTrip.test f
  | .cmp f => RoundTrip.cmp f | .cmpx f => RoundTrip.cmpx f | .cmps f => RoundTrip.cmps f
  | .cmpsx f => RoundTrip.cmpsx f | .cmpr f => RoundTrip.cmpr f | .coginit n f => RoundTrip.coginit n f
  | .waitvidImm n f => RoundTrip.waitvidImm n f | .waitvid f => RoundTrip.waitvid f
  | .waitpeq n f => RoundTrip.waitpeq n f | .waitpne n f => RoundTrip.waitpne n f
  | .wrbyte f => RoundTrip.wrbyte f | .wrword f => RoundTrip.wrword f | .wrlong f => RoundTrip.wrlong f
  | .frac f => RoundTrip.frac f | .wraux f => RoundTrip.wraux f | .wrauxr f => RoundTrip.wrauxr f
  | .setacca f => RoundTrip.setacca f | .setaccb f => RoundTrip.setaccb f | .maca f => RoundTrip.maca f
  | .macb f => RoundTrip.macb f | .mul32 f => RoundTrip.mul32 f | .mul32u f => RoundTrip.mul32u f
  | .div32 f => RoundTrip.div32 f | .div32u f => RoundTrip.div32u f | .div64 f => RoundTrip.div64 f
  | .div64u f => RoundTrip.div64u f | .sqrt64 f => RoundTrip.sqrt64 f | .qsincos f => RoundTrip.qsincos f
  | .qarctan f => RoundTrip.qarctan f | .qrotate f => RoundTrip.qrotate f | .setsera f => RoundTrip.setsera f
  | .setserb f => RoundTrip.setserb f | .setctrs f => RoundTrip.setctrs f | .setwavs f => RoundTrip.setwavs f
  | .setfrqs f => RoundTrip.setfrqs f | .setphss f => RoundTrip.setphss f | .addphss f => RoundTrip.addphss f
  | .subphss f => RoundTrip.subphss f | .jp f => RoundTrip.jp f | .jpd f => RoundTrip.jpd f
  | .jnp f => RoundTrip.jnp f | .jnpd f => RoundTrip.jnpd f | .cfgpins n f => RoundTrip.cfgpins n f
  | .jmptask f => RoundTrip.jmptask f | .setxfr f => RoundTrip.setxfr f | .setmix f => RoundTrip.setmix f
  | .jz f => RoundTrip.jz f | .jzd f => RoundTrip.jzd f | .jnz f => RoundTrip.jnz f
  | .jnzd f => RoundTrip.jnzd f | .locbase f => RoundTrip.locbase f | .locbyte f => RoundTrip.locbyte f
  | .locword f => RoundTrip.locword f | .loclong f => RoundTrip.loclong f | .jmplist f => RoundTrip.jmplist f
  | .locinst f => RoundTrip.locinst f | .reps n i => RoundTrip.reps n i | .augs n => RoundTrip.augs n
  | .augd n => RoundTrip.augd n | .fixinda f => RoundTrip.fixinda f | .fixindb f => RoundTrip.fixindb f
  | .fixinds f => RoundTrip.fixinds f | .setindaAbs f => RoundTrip.setindaAbs f
  | .setindaRel f => RoundTrip.setindaRel f | .setindbAbs f => RoundTrip.setindbAbs f
  | .setindbRel f => RoundTrip.setindbRel f | .setindsAbsAbs f => RoundTrip.setindsAbsAbs f
  | .setindsAbsRel f => RoundTrip.setindsAbsRel f | .setindsRelAbs f => RoundTrip.setindsRelAbs f
  | .setindsRelRel f => RoundTrip.setindsRelRel f | .locptraAbs f => RoundTrip.locptraAbs f
  | .locptraRel f => RoundTrip.locptraRel f | .locptrbAbs f => RoundTrip.locptrbAbs f
  | .locptrbRel f => RoundTrip.locptrbRel f | .jmpAbs f => RoundTrip.jmpAbs f | .jmpRel f => RoundTrip.jmpRel f
  | .jmpdAbs f => RoundTrip.jmpdAbs f | .jmpdRel f => RoundTrip.jmpdRel f | .callAbs f => RoundTrip.callAbs f
  | .callRel f => RoundTrip.callRel f | .calldAbs f => RoundTrip.calldAbs f
  | .calldRel f => RoundTrip.calldRel f | .callaAbs f => RoundTrip.callaAbs f
  | .callaRel f => RoundTrip.callaRel f | .calladAbs f => RoundTrip.calladAbs f
  | .calladRel f => RoundTrip.calladRel f | .callbAbs f => RoundTrip.callbAbs f
  | .callbRel f => RoundTrip.callbRel f | .callbdAbs f => RoundTrip.callbdAbs f
  | .callbdRel f => RoundTrip.callbdRel f | .callxAbs f => RoundTrip.callxAbs f
  | .callxRel f => RoundTrip.callxRel f | .callxdAbs f => RoundTrip.callxdAbs f
  | .callxdRel f => RoundTrip.callxdRel f | .callyAbs f => RoundTrip.callyAbs f
  | .callyRel f => RoundTrip.callyRel f | .callydAbs f => RoundTrip.callydAbs f
  | .callydRel f => RoundTrip.callydRel f | .cogid f => RoundTrip.cogid f | .taskid f => RoundTrip.taskid f
  | .locknew f => RoundTrip.locknew f | .getlfsr f => RoundTrip.getlfsr f | .getcnt f => RoundTrip.getcnt f
  | .getcntx f => RoundTrip.getcntx f | .getacal f => RoundTrip.getacal f | .getacah f => RoundTrip.getacah f
  | .getacbl f => RoundTrip.getacbl f | .getacbh f => RoundTrip.getacbh f | .getptra f => RoundTrip.getptra f
  | .getptrb f => RoundTrip.getptrb f | .getptrx f => RoundTrip.getptrx f | .getptry f => RoundTrip.getptry f
  | .serina f => RoundTrip.serina f | .serinb f => RoundTrip.serinb f | .getmull f => RoundTrip.getmull f
  | .getmulh f => RoundTrip.getmulh f | .getdivq f => RoundTrip.getdivq f | .getdivr f => RoundTrip.getdivr f
  | .getsqrt f => RoundTrip.getsqrt f | .getqx f => RoundTrip.getqx f | .getqy f => RoundTrip.getqy f
  | .getqz f => RoundTrip.getqz f | .getphsa f => RoundTrip.getphsa f | .getphza f => RoundTrip.getphza f
  | .getcosa f => RoundTrip.getcosa f | .getsina f => RoundTrip.getsina f | .getphsb f => RoundTrip.getphsb f
  | .getphzb f => RoundTrip.getphzb f | .getcosb f => RoundTrip.getcosb f | .getsinb f => RoundTrip.getsinb f
  | .pushzc f => RoundTrip.pushzc f | .popzc f => RoundTrip.popzc f | .subcnt f => RoundTrip.subcnt f
  | .getpix f => RoundTrip.getpix f | .binbcd f => RoundTrip.binbcd f | .bcdbin f => RoundTrip.bcdbin f
  | .bingry f => RoundTrip.bingry f | .grybin f => RoundTrip.grybin f | .eswap4 f => RoundTrip.eswap4 f
  | .eswap8 f => RoundTrip.eswap8 f | .seussf f => RoundTrip.seussf f | .seussr f => RoundTrip.seussr f
  | .incd f => RoundTrip.incd f | .decd f => RoundTrip.decd f | .incds f => RoundTrip.incds f
  | .decds f => RoundTrip.decds f | .pop f => RoundTrip.pop f | .repd i f => RoundTrip.repd i f
  | .repdInf i f => RoundTrip.repdInf i f | .clkset f => RoundTrip.clkset f | .cogstop f => RoundTrip.cogstop f
  | .lockset f => RoundTrip.lockset f | .lockclr f => RoundTrip.lockclr f | .lockret f => RoundTrip.lockret f
  | .rdwidec f => RoundTrip.rdwidec f | .rdwide f => RoundTrip.rdwide f | .wrwide f => RoundTrip.wrwide f
  | .getp f => RoundTrip.getp f | .getnp f => RoundTrip.getnp f | .serouta f => RoundTrip.serouta f
  | .seroutb f => RoundTrip.seroutb f | .cmpcnt f => RoundTrip.cmpcnt f | .waitpx f => RoundTrip.waitpx f
  | .waitpr f => RoundTrip.waitpr f | .waitpf f => RoundTrip.waitpf f | .setzc f => RoundTrip.setzc f
  | .setmap f => RoundTrip.setmap f | .setxch f => RoundTrip.setxch f | .settask f => RoundTrip.settask f
  | .setrace f => RoundTrip.setrace f | .saracca f => RoundTrip.saracca f | .saraccb f => RoundTrip.saraccb f
  | .saraccs f => RoundTrip.saraccs f | .setptra f => RoundTrip.setptra f | .setptrb f => RoundTrip.setptrb f
  | .addptra f => RoundTrip.addptra f | .addptrb f => RoundTrip.addptrb f | .subptra f => RoundTrip.subptra f
  | .subptrb f => RoundTrip.subptrb f | .setwide f => RoundTrip.setwide f | .setwidz f => RoundTrip.setwidz f
  | .setptrx f => RoundTrip.setptrx f | .setptry f => RoundTrip.setptry f | .addptrx f => RoundTrip.addptrx f
  | .addptry f => RoundTrip.addptry f | .subptrx f => RoundTrip.subptrx f | .subptry f => RoundTrip.subptry f
  | .passcnt f => RoundTrip.passcnt f | .wait f => RoundTrip.wait f | .offp f => RoundTrip.offp f
  | .notp f => RoundTrip.notp f | .clrp f => RoundTrip.clrp f | .setp f => RoundTrip.setp f
  | .setpc f => RoundTrip.setpc f | .setpnc f => RoundTrip.setpnc f | .setpz f => RoundTrip.setpz f
  | .setpnz f => RoundTrip.setpnz f | .div64d f => RoundTrip.div64d f | .sqrt32 f => RoundTrip.sqrt32 f
  | .qlog f => RoundTrip.qlog f | .qexp f => RoundTrip.qexp f | .setqi f => RoundTrip.setqi f
  | .setqz f => RoundTrip.setqz f | .cfgdacs f => RoundTrip.cfgdacs f | .setdacs f => RoundTrip.setdacs f
  | .cfgdac0 f => RoundTrip.cfgdac0 f | .cfgdac1 f => RoundTrip.cfgdac1 f | .cfgdac2 f => RoundTrip.cfgdac2 f
  | .cfgdac3 f => RoundTrip.cfgdac3 f | .setdac0 f => RoundTrip.setdac0 f | .setdac1 f => RoundTrip.setdac1 f
  | .setdac2 f => RoundTrip.setdac2 f | .setdac3 f => RoundTrip.setdac3 f | .setctra f => RoundTrip.setctra f
  | .setwava f => RoundTrip.setwava f | .setfrqa f => RoundTrip.setfrqa f | .setphsa f => RoundTrip.setphsa f
  | .addphsa f => RoundTrip.addphsa f | .subphsa f => RoundTrip.subphsa f | .setvid f => RoundTrip.setvid f
  | .setvidy f => RoundTrip.setvidy f | .setctrb f => RoundTrip.setctrb f | .setwavb f => RoundTrip.setwavb f
  | .setfrqb f => RoundTrip.setfrqb f | .setphsb f => RoundTrip.setphsb f | .addphsb f => RoundTrip.addphsb f
  | .subphsb f => RoundTrip.subphsb f | .setvidi f => RoundTrip.setvidi f | .setvidq f => RoundTrip.setvidq f
  | .setpix f => RoundTrip.setpix f | .setpixz f => RoundTrip.setpixz f | .setpixu f => RoundTrip.setpixu f
  | .setpixv f => RoundTrip.setpixv f | .setpixa f => RoundTrip.setpixa f | .setpixr f => RoundTrip.setpixr f
  | .setpixg f => RoundTrip.setpixg f | .setpixb f => RoundTrip.setpixb f | .setpora f => RoundTrip.setpora f
  | .setporb f => RoundTrip.setporb f | .setporc f => RoundTrip.setporc f | .setpord f => RoundTrip.setpord f
  | .push f => RoundTrip.push f | .jmpReg f => RoundTrip.jmpReg f | .jmpdReg f => RoundTrip.jmpdReg f
  | .callReg f => RoundTrip.callReg f | .calldReg f => RoundTrip.calldReg f
  | .callaReg f => RoundTrip.callaReg f | .calladReg f => RoundTrip.calladReg f
  | .callbReg f => RoundTrip.callbReg f | .callbdReg f => RoundTrip.callbdReg f
  | .callxReg f => RoundTrip.callxReg f | .callxdReg f => RoundTrip.callxdReg f
  | .callyReg f => RoundTrip.callyReg f | .callydReg f => RoundTrip.callydReg f | .reta f => RoundTrip.reta f
  | .retad f => RoundTrip.retad f | .retb f => RoundTrip.retb f | .retbd f => RoundTrip.retbd f
  | .retx f => RoundTrip.retx f | .retxd f => RoundTrip.retxd f | .rety f => RoundTrip.rety f
  | .retyd f => RoundTrip.retyd f | .ret f => RoundTrip.ret f | .retd f => RoundTrip.retd f
  | .polctra f => RoundTrip.polctra f | .polctrb f => RoundTrip.polctrb f | .polvid f => RoundTrip.polvid f
  | .capctra f => RoundTrip.capctra f | .capctrb f => RoundTrip.capctrb f | .capctrs f => RoundTrip.capctrs f
  | .setpixw f => RoundTrip.setpixw f | .clracca f => RoundTrip.clracca f | .clraccb f => RoundTrip.clraccb f
  | .clraccs f => RoundTrip.clraccs f | .chkptrx f => RoundTrip.chkptrx f | .chkptry f => RoundTrip.chkptry f
  | .synctra f => RoundTrip.synctra f | .synctrb f => RoundTrip.synctrb f | .dcachex f => RoundTrip.dcachex f
  | .icachex f => RoundTrip.icachex f | .icachep f => RoundTrip.icachep f | .icachen f => RoundTrip.icachen f
  | .nop => RoundTrip.nop | .mergen f => RoundTrip.mergen f | .splitn f => RoundTrip.splitn f
  | .switch => RoundTrip.switch | .switchd => RoundTrip.switchd | .pusha f => RoundTrip.pusha f
  | .pushb f => RoundTrip.pushb f | .popa f => RoundTrip.popa f | .popb f => RoundTrip.popb f
  | .pushx f => RoundTrip.pushx f | .pushy f => RoundTrip.pushy f | .popx f => RoundTrip.popx f
  | .popy f => RoundTrip.popy f

/-! ### What the decoder reads is well-formed -/

/-- Whatever a reader of fields answers is well-formed under its own name (R198, R202). -/
def ReadsWell (r : Decoded) : Prop := ∀ i, r = .ok i → i.spell.wellFormed = true

theorem readsWell_ok {i : Instr} (h : i.spell.wellFormed = true) : ReadsWell (.ok i) := by
  rintro _ ⟨⟩
  exact h

theorem readsWell_error (e : DecodeError) : ReadsWell (.error e) := by
  rintro _ ⟨⟩

theorem readsWell_guard {c : Prop} [Decidable c] {e : DecodeError} {r : Decoded} (h : ReadsWell r) :
    ReadsWell (if c then .error e else r) := by
  split
  · exact readsWell_error e
  · exact h

section Formats

variable {f : Fields}

theorem readsWell_dual {k : Dual → Instr} (h : ∀ x, (k x).spell.wellFormed = true) : ReadsWell (f.dual k) :=
  readsWell_ok (h _)
theorem readsWell_dualZ {k : DualZ → Instr} (h : ∀ x, (k x).spell.wellFormed = true) : ReadsWell (f.dualZ k) :=
  readsWell_ok (h _)
theorem readsWell_dualC {k : DualC → Instr} (h : ∀ x, (k x).spell.wellFormed = true) : ReadsWell (f.dualC k) :=
  readsWell_ok (h _)
theorem readsWell_dualL {k : DualL → Instr} (h : ∀ x, (k x).spell.wellFormed = true) : ReadsWell (f.dualL k) :=
  readsWell_ok (h _)
theorem readsWell_dualP {k : DualP → Instr} (h : ∀ x, (k x).spell.wellFormed = true) : ReadsWell (f.dualP k) :=
  readsWell_ok (h _)
theorem readsWell_singleZC {k : SingleZC → Instr} (h : ∀ x, (k x).spell.wellFormed = true) : ReadsWell (f.singleZC k) :=
  readsWell_guard (readsWell_ok (h _))
theorem readsWell_singleL {k : SingleL → Instr} (h : ∀ x, (k x).spell.wellFormed = true) : ReadsWell (f.singleL k) :=
  readsWell_guard (readsWell_ok (h _))
theorem readsWell_singleCL {k : SingleCL → Instr} (h : ∀ x, (k x).spell.wellFormed = true) : ReadsWell (f.singleCL k) :=
  readsWell_guard (readsWell_ok (h _))
theorem readsWell_singleZCL {k : SingleZCL → Instr} (h : ∀ x, (k x).spell.wellFormed = true) :
    ReadsWell (f.singleZCL k) :=
  readsWell_ok (h _)
theorem readsWell_zero0 {k : Zero0 → Instr} (h : ∀ x, (k x).spell.wellFormed = true) : ReadsWell (f.zero0 k) :=
  readsWell_guard (readsWell_ok (h _))
theorem readsWell_zero0ZC {k : Zero0ZC → Instr} (h : ∀ x, (k x).spell.wellFormed = true) : ReadsWell (f.zero0ZC k) :=
  readsWell_ok (h _)
theorem readsWell_big {k : Big → Instr} (h : ∀ x, (k x).spell.wellFormed = true) : ReadsWell (f.big k) :=
  readsWell_ok (h _)
theorem readsWell_ind {k : Ind → Instr} (h : ∀ x, (k x).spell.wellFormed = true) : ReadsWell (f.ind k) :=
  readsWell_ok (h _)

end Formats

/-! The rows whose words have second names: what `spell` leaves under the first name is none of them. -/

theorem wellFormed_ite {c : Prop} [Decidable c] {i j : Instr} (hi : c → i.wellFormed = true)
    (hj : ¬c → j.wellFormed = true) : (if c then i else j).wellFormed = true := by
  split
  · exact hi ‹_›
  · exact hj ‹_›

theorem spell_rdbyte (f : Dual) : (Instr.rdbyte f).spell.wellFormed = true :=
  wellFormed_ite (fun _ => rfl) fun h => by simpa [Instr.wellFormed] using h
theorem spell_jmpsw (f : Dual) : (Instr.jmpsw f).spell.wellFormed = true :=
  wellFormed_ite (fun _ => rfl) fun h => by simpa [Instr.wellFormed] using h
theorem spell_jmpswd (f : Dual) : (Instr.jmpswd f).spell.wellFormed = true :=
  wellFormed_ite (fun _ => rfl) fun h => by simpa [Instr.wellFormed] using h
theorem spell_rdaux (f : Dual) : (Instr.rdaux f).spell.wellFormed = true :=
  wellFormed_ite (fun _ => rfl) fun h => by simpa only [Instr.wellFormed, Bool.not_eq_true', Bool.not_eq_true] using h
theorem spell_rdauxr (f : Dual) : (Instr.rdauxr f).spell.wellFormed = true :=
  wellFormed_ite (fun _ => rfl) fun h => by simpa only [Instr.wellFormed, Bool.not_eq_true', Bool.not_eq_true] using h
theorem spell_wraux (f : DualL) : (Instr.wraux f).spell.wellFormed = true :=
  wellFormed_ite (fun _ => rfl) fun h => by simpa only [Instr.wellFormed, Bool.not_eq_true', Bool.not_eq_true] using h
theorem spell_wrauxr (f : DualL) : (Instr.wrauxr f).spell.wellFormed = true :=
  wellFormed_ite (fun _ => rfl) fun h => by simpa only [Instr.wellFormed, Bool.not_eq_true', Bool.not_eq_true] using h
theorem spell_rdlong (f : Dual) : (Instr.rdlong f).spell.wellFormed = true :=
  wellFormed_ite (fun _ => rfl) fun ha => wellFormed_ite (fun _ => rfl) fun hb => by
    simp only [Instr.wellFormed, isPopHub]
    cases hi : f.i <;> simp_all
theorem spell_wrlong (f : DualL) : (Instr.wrlong f).spell.wellFormed = true :=
  wellFormed_ite (fun _ => rfl) fun ha => wellFormed_ite (fun _ => rfl) fun hb => by
    simp only [Instr.wellFormed, isPushHub]
    cases hi : f.i <;> simp_all

theorem spell_waitvidImm {n : BitVec 12} (h : n.extractLsb' 9 3 ≠ 7#3) (f : DualS) :
    (Instr.waitvidImm n f).spell.wellFormed = true := by
  simpa [Instr.spell, Instr.wellFormed] using h

theorem spell_cfgpins {n : BitVec 2} (h : n ≠ 3#2) (f : DualL) : (Instr.cfgpins n f).spell.wellFormed = true := by
  simpa [Instr.spell, Instr.wellFormed] using h

/-! Row by row: the rows of one format first, then those that share their opcode. -/

theorem row0_reads (f : Fields) : ReadsWell f.row0 := by
  unfold Fields.row0
  split
  case h_1 => exact readsWell_dual spell_rdbyte
  case h_5 => exact readsWell_dual spell_rdlong
  case h_7 => exact readsWell_dual spell_rdaux
  case h_8 => exact readsWell_dual spell_rdauxr
  all_goals exact readsWell_dual fun _ => rfl

theorem row1_reads (f : Fields) : ReadsWell f.row1 := by
  unfold Fields.row1
  split <;> exact readsWell_dual fun _ => rfl

theorem row2_reads (f : Fields) : ReadsWell f.row2 := by
  unfold Fields.row2
  split <;> exact readsWell_dual fun _ => rfl

theorem row3_reads (f : Fields) : ReadsWell f.row3 := by
  unfold Fields.row3
  split <;> exact readsWell_dual fun _ => rfl

theorem row4_reads (f : Fields) : ReadsWell f.row4 := by
  unfold Fields.row4
  split
  case h_5 | h_6 => split <;> exact readsWell_dualZ fun _ => rfl
  case h_7 => split <;> exact readsWell_dualC fun _ => rfl
  case h_1 | h_2 | h_3 | h_4 => exact readsWell_dual fun _ => rfl
  case h_16 =>
    split
    case h_1 | h_2 => exact readsWell_dualC fun _ => rfl
    all_goals exact readsWell_dualP fun _ => rfl
  all_goals split <;> exact readsWell_dualP fun _ => rfl

theorem row5_reads (f : Fields) : ReadsWell f.row5 := by
  unfold Fields.row5
  split
  case h_5 => exact readsWell_dual spell_jmpsw
  case h_6 => exact readsWell_dual spell_jmpswd
  case h_1 | h_2 | h_3 | h_4 | h_7 | h_8 => split <;> exact readsWell_dualP fun _ => rfl
  all_goals exact readsWell_dual fun _ => rfl

theorem high_three (a : BitVec 2) (b : Bool) (d : BitVec 9) :
    (a ++ BitVec.ofBool b ++ d).extractLsb' 9 3 = a ++ BitVec.ofBool b := high_append _ _

theorem row6_reads (f : Fields) : ReadsWell f.row6 := by
  have imm (a : BitVec 2) (h : a ++ BitVec.ofBool f.b24 ≠ 7#3) (x : DualS) :
      ReadsWell (.ok (.waitvidImm (a ++ BitVec.ofBool f.b24 ++ f.d) x)) :=
    readsWell_ok (spell_waitvidImm (by rw [high_three]; exact h) x)
  have low : ∀ a : BitVec 2, a ≠ 3#2 → a ++ BitVec.ofBool f.b24 ≠ 7#3 := by
    cases f.b24 <;> decide
  unfold Fields.row6
  split
  case h_1 | h_2 | h_3 =>
    split
    · exact imm _ (low _ (by decide)) _
    · exact readsWell_dualP fun _ => rfl
  case h_4 =>
    split_ifs with h23 h24
    · exact readsWell_dualP fun _ => rfl
    · exact imm _ (by rw [Bool.eq_false_of_not_eq_true h24]; decide) _
    · exact readsWell_dualP fun _ => rfl
  case h_5 | h_6 | h_7 | h_8 => exact readsWell_dualC fun _ => rfl
  case h_10 =>
    split
    · exact readsWell_dualL fun _ => rfl
    · exact readsWell_dualL spell_wrlong
  case h_11 =>
    split
    · exact readsWell_dualL spell_wrauxr
    · exact readsWell_dualL spell_wraux
  all_goals split <;> exact readsWell_dualL fun _ => rfl

theorem single_reads (f : Fields) : ReadsWell f.single := by
  unfold Fields.single
  split
  case h_5 | h_6 | h_7 | h_8 =>
    refine readsWell_guard ?_
    split_ifs with h
    · exact readsWell_ok rfl
    · exact readsWell_ok (by simpa only [Instr.spell, Instr.wellFormed, Bool.not_eq_true', Bool.not_eq_true] using h)
  case h_18 => exact readsWell_error _
  case h_1 => unfold Fields.single00; split <;> exact readsWell_singleZC fun _ => rfl
  case h_2 => unfold Fields.single01; split <;> exact readsWell_singleZC fun _ => rfl
  case h_3 => unfold Fields.single02; split <;> exact readsWell_singleZC fun _ => rfl
  case h_4 => unfold Fields.single03; split; exacts [readsWell_singleZC fun _ => rfl, readsWell_error _]
  case h_9 =>
    unfold Fields.single08
    split
    case h_3 | h_4 | h_11 | h_12 | h_13 | h_14 | h_15 | h_16 => exact readsWell_singleCL fun _ => rfl
    case h_9 | h_10 => exact readsWell_singleZCL fun _ => rfl
    all_goals exact readsWell_singleL fun _ => rfl
  case h_10 =>
    unfold Fields.single09
    split
    case h_1 => exact readsWell_singleZCL fun _ => rfl
    all_goals exact readsWell_singleL fun _ => rfl
  case h_11 => unfold Fields.single10; split <;> exact readsWell_singleL fun _ => rfl
  case h_12 => unfold Fields.single11; split <;> exact readsWell_singleL fun _ => rfl
  case h_13 => unfold Fields.single12; split <;> exact readsWell_singleL fun _ => rfl
  case h_14 =>
    unfold Fields.single13
    split
    case h_14 => exact readsWell_error _
    all_goals exact readsWell_singleL fun _ => rfl
  case h_15 =>
    unfold Fields.single15
    split
    case h_13 => exact readsWell_error _
    all_goals exact readsWell_singleZC fun _ => rfl
  case h_16 =>
    unfold Fields.single16
    split
    case h_14 | h_15 | h_16 => exact readsWell_zero0 fun _ => rfl
    all_goals exact readsWell_zero0ZC fun _ => rfl
  case h_17 =>
    unfold Fields.single17
    split
    case h_13 => exact readsWell_error _
    case h_5 | h_6 => exact readsWell_zero0ZC fun _ => rfl
    all_goals exact readsWell_zero0 fun _ => rfl

theorem big16_reads (f : Fields) : ReadsWell f.big16 := by
  unfold Fields.big16
  split
  case h_1 =>
    unfold Fields.indirect
    split
    case h_12 => exact readsWell_error _
    all_goals exact readsWell_ind fun _ => rfl
  all_goals exact readsWell_big fun _ => rfl

theorem row7_reads (f : Fields) : ReadsWell f.row7 := by
  unfold Fields.row7
  split
  case h_9 => exact readsWell_dualL (spell_cfgpins (by cases f.b24 <;> decide))
  case h_10 =>
    split
    · exact readsWell_dualL fun _ => rfl
    · exact readsWell_dualL (spell_cfgpins (by decide))
  case h_12 | h_13 => split <;> exact readsWell_dualP fun _ => rfl
  case h_14 =>
    split
    case h_1 => exact readsWell_dualP fun _ => rfl
    all_goals exact readsWell_ok rfl
  case h_15 => exact big16_reads f
  case h_16 => exact single_reads f
  all_goals split <;> exact readsWell_dualL fun _ => rfl

theorem decodeFields_reads (f : Fields) : ReadsWell (decodeFields f) := by
  unfold decodeFields
  split
  · exact row0_reads f
  · exact row1_reads f
  · exact row2_reads f
  · exact row3_reads f
  · exact row4_reads f
  · exact row5_reads f
  · exact row6_reads f
  · exact row7_reads f

/-- A word is read as `i` when its fields are, under the first name of the row. -/
theorem decode_ok_iff {w : Word} {i : Instr} :
    decode w = .ok i ↔ ∃ j, decodeFields (Fields.split w) = .ok j ∧ j.spell = i := by
  unfold decode
  cases decodeFields (Fields.split w) <;> simp [Except.map]

theorem decode_error_iff {w : Word} {e : DecodeError} : decode w = .error e ↔ decodeFields (Fields.split w) = .error e := by
  unfold decode
  cases decodeFields (Fields.split w) <;> simp [Except.map]

theorem decode_wellFormed {w : Word} {i : Instr} (h : decode w = .ok i) : i.wellFormed = true := by
  obtain ⟨j, hj, rfl⟩ := decode_ok_iff.mp h
  exact decodeFields_reads _ j hj

/-! ### Which words are of no row (R195) -/

/-- A reader answers an instruction. -/
def Answers (r : Decoded) : Prop := ∃ i, r = .ok i

theorem answers_ok (i : Instr) : Answers (.ok i) := ⟨i, rfl⟩

theorem not_answers_error (e : DecodeError) : ¬Answers (.error e) := by
  rintro ⟨i, h⟩
  cases h

theorem answers_guard {b : Bool} {e : DecodeError} {i : Instr} :
    Answers (if b = true then .error e else .ok i) ↔ b = false := by
  cases b
  · exact iff_of_true (answers_ok i) rfl
  · exact iff_of_false (not_answers_error e) (by decide)

theorem decode_answers {w : Word} : Answers (decode w) ↔ Answers (decodeFields (Fields.split w)) :=
  ⟨fun ⟨_, h⟩ => let ⟨j, hj, _⟩ := decode_ok_iff.mp h; ⟨j, hj⟩, fun ⟨j, h⟩ => ⟨j.spell, decode_ok_iff.mpr ⟨j, h, rfl⟩⟩⟩

section Answers

variable {f : Fields}

theorem answers_singleZC (k : SingleZC → Instr) : Answers (f.singleZC k) ↔ f.b22 = false := answers_guard
theorem answers_singleL (k : SingleL → Instr) : Answers (f.singleL k) ↔ f.b24 = false ∧ f.b23 = false :=
  answers_guard.trans Bool.or_eq_false_iff
theorem answers_singleCL (k : SingleCL → Instr) : Answers (f.singleCL k) ↔ f.b24 = false := answers_guard
theorem answers_singleZCL (k : SingleZCL → Instr) : Answers (f.singleZCL k) := answers_ok _
theorem answers_zero0 (k : Zero0 → Instr) : Answers (f.zero0 k) ↔ f.b24 = false ∧ f.b23 = false :=
  answers_guard.trans Bool.or_eq_false_iff
theorem answers_zero0ZC (k : Zero0ZC → Instr) : Answers (f.zero0ZC k) := answers_ok _

/-! Every word of the first 126 primary opcodes is of a row. -/

theorem row0_answers (f : Fields) : Answers f.row0 := by unfold Fields.row0; split <;> exact answers_ok _
theorem row1_answers (f : Fields) : Answers f.row1 := by unfold Fields.row1; split <;> exact answers_ok _
theorem row2_answers (f : Fields) : Answers f.row2 := by unfold Fields.row2; split <;> exact answers_ok _
theorem row3_answers (f : Fields) : Answers f.row3 := by unfold Fields.row3; split <;> exact answers_ok _
theorem row4_answers (f : Fields) : Answers f.row4 := by
  unfold Fields.row4
  repeat' split
  all_goals exact answers_ok _
theorem row5_answers (f : Fields) : Answers f.row5 := by
  unfold Fields.row5
  repeat' split
  all_goals exact answers_ok _
theorem row6_answers (f : Fields) : Answers f.row6 := by
  unfold Fields.row6
  repeat' split
  all_goals exact answers_ok _

theorem row7_answers (h : f.op.toNat < 126) (h7 : 7 ≤ f.op.toNat / 16) : Answers f.row7 := by
  unfold Fields.row7
  split
  case h_15 => omega
  case h_16 =>
    simp only [imp_false] at *
    omega
  all_goals repeat' split
  all_goals exact answers_ok _

theorem decodeFields_answers (h : f.op.toNat < 126) : Answers (decodeFields f) := by
  unfold decodeFields
  split
  · exact row0_answers f
  · exact row1_answers f
  · exact row2_answers f
  · exact row3_answers f
  · exact row4_answers f
  · exact row5_answers f
  · exact row6_answers f
  · exact row7_answers h (by simp only [imp_false] at *; omega)

/-! Primary %1111110. -/

/-- The BBAA values of no row (R195 (b)). -/
abbrev NoInd (cond : BitVec 4) : Prop := cond ∈ [0b0000#4, 0b0110#4, 0b0111#4, 0b1001#4, 0b1101#4]

theorem indirect_unassigned (h : NoInd f.cond) : f.indirect = .error .unassignedInd := by
  simp only [NoInd, List.mem_cons, List.not_mem_nil, or_false] at h
  unfold Fields.indirect
  rcases h with h | h | h | h | h <;> rw [h] <;> rfl

theorem indirect_answers (h : ¬NoInd f.cond) : Answers f.indirect := by
  have all : ∀ c : BitVec 4, ¬NoInd c → c.toNat ∈ [1, 4, 5, 2, 3, 8, 12, 10, 11, 14, 15] := by decide
  have hc := all _ h
  simp only [List.mem_cons, List.not_mem_nil, or_false] at hc
  unfold Fields.indirect
  rcases hc with hc | hc | hc | hc | hc | hc | hc | hc | hc | hc | hc <;> rw [hc] <;> exact answers_ok _

theorem big16_indirect (h24 : f.b24 = false) (h23 : f.b23 = false) (h22 : f.b22 = false) : f.big16 = f.indirect := by
  unfold Fields.big16
  rw [h24, h23, h22]

theorem big16_answers (h : ¬(f.b24 = false ∧ f.b23 = false ∧ f.b22 = false)) : Answers f.big16 := by
  unfold Fields.big16
  split
  case h_1 h24 h23 h22 => exact absurd ⟨h24, h23, h22⟩ h
  all_goals exact answers_ok _

/-! Primary %1111111: block by block of sixteen codes. -/

theorem single00_answers : Answers f.single00 ↔ f.b22 = false := by
  unfold Fields.single00; split <;> exact answers_singleZC _
theorem single01_answers : Answers f.single01 ↔ f.b22 = false := by
  unfold Fields.single01; split <;> exact answers_singleZC _
theorem single02_answers : Answers f.single02 ↔ f.b22 = false := by
  unfold Fields.single02; split <;> exact answers_singleZC _
theorem single10_answers : Answers f.single10 ↔ f.b24 = false ∧ f.b23 = false := by
  unfold Fields.single10; split <;> exact answers_singleL _
theorem single11_answers : Answers f.single11 ↔ f.b24 = false ∧ f.b23 = false := by
  unfold Fields.single11; split <;> exact answers_singleL _
theorem single12_answers : Answers f.single12 ↔ f.b24 = false ∧ f.b23 = false := by
  unfold Fields.single12; split <;> exact answers_singleL _

theorem repd_answers : Answers f.repd ↔ f.b24 = false ∧ f.b23 = false := by
  unfold Fields.repd
  rw [← Bool.or_eq_false_iff]
  split_ifs with h hi
  · exact iff_of_false (not_answers_error _) (by simp [h])
  · exact iff_of_true (answers_ok _) (Bool.eq_false_of_not_eq_true h)
  · exact iff_of_true (answers_ok _) (Bool.eq_false_of_not_eq_true h)

theorem single03_answers : Answers f.single03 ↔ f.s.toNat % 16 = 0 ∧ f.b22 = false := by
  unfold Fields.single03
  split
  case h_1 h => exact (answers_singleZC _).trans (by simp [h])
  case h_2 h => exact iff_of_false (not_answers_error _) fun ⟨e, _⟩ => h e

theorem single08_answers : Answers f.single08 ↔ (f.b24 = false ∨ f.s.toNat % 16 = 8 ∨ f.s.toNat % 16 = 9)
    ∧ (f.b23 = false ∨ f.s.toNat % 16 = 2 ∨ f.s.toNat % 16 = 3 ∨ 8 ≤ f.s.toNat % 16) := by
  unfold Fields.single08
  split
  case h_9 h | h_10 h => exact iff_of_true (answers_singleZCL _) (by omega)
  case h_3 h | h_4 h | h_11 h | h_12 h | h_13 h | h_14 h | h_15 h => exact (answers_singleCL _).trans (by simp [h])
  case h_16 => exact (answers_singleCL _).trans (by rw [show f.s.toNat % 16 = 15 by simp only [imp_false] at *; omega]; simp)
  all_goals exact (answers_singleL _).trans (by simp [*])

theorem single09_answers : Answers f.single09 ↔ f.s.toNat % 16 = 0 ∨ f.b24 = false ∧ f.b23 = false := by
  unfold Fields.single09
  split
  case h_1 h => exact iff_of_true (answers_singleZCL _) (.inl h)
  case h_16 => exact (answers_singleL _).trans (by rw [show f.s.toNat % 16 = 15 by simp only [imp_false] at *; omega]; simp)
  all_goals exact (answers_singleL _).trans (by simp [*])

theorem single13_answers : Answers f.single13 ↔ f.s.toNat % 16 ≤ 12 ∧ f.b24 = false ∧ f.b23 = false := by
  unfold Fields.single13
  split
  case h_14 => exact iff_of_false (not_answers_error _) (by simp only [imp_false] at *; omega)
  all_goals exact (answers_singleL _).trans (by simp [*])

theorem single15_answers : Answers f.single15 ↔ 4 ≤ f.s.toNat % 16 ∧ f.b22 = false := by
  unfold Fields.single15
  split
  case h_13 => exact iff_of_false (not_answers_error _) (by simp only [imp_false] at *; omega)
  all_goals exact (answers_singleZC _).trans (by simp [*])

theorem single16_answers : Answers f.single16 ↔ f.s.toNat % 16 ≤ 12 ∨ f.b24 = false ∧ f.b23 = false := by
  unfold Fields.single16
  split
  case h_14 h | h_15 h => exact (answers_zero0 _).trans (by simp [h])
  case h_16 => exact (answers_zero0 _).trans (by rw [show f.s.toNat % 16 = 15 by simp only [imp_false] at *; omega]; simp)
  all_goals exact iff_of_true (answers_zero0ZC _) (by omega)

theorem single17_answers : Answers f.single17
    ↔ f.s.toNat % 16 < 12 ∧ (f.s.toNat % 16 = 4 ∨ f.s.toNat % 16 = 5 ∨ f.b24 = false ∧ f.b23 = false) := by
  unfold Fields.single17
  split
  case h_13 => exact iff_of_false (not_answers_error _) (by simp only [imp_false] at *; omega)
  case h_5 h | h_6 h => exact iff_of_true (answers_zero0ZC _) (by omega)
  all_goals exact (answers_zero0 _).trans (by simp [*])

end Answers

/-- The SINGLE codes of no row (R195 (a)). -/
abbrev NoCode (c : Nat) : Prop := (0x031 ≤ c ∧ c ≤ 0x03F) ∨ (0x0DD ≤ c ∧ c ≤ 0x0F3) ∨ 0x11C ≤ c
/-- The SINGLE codes whose rows print 0 in bit 24, in bit 23, in bit 22 (R195 (c), (d)). -/
abbrev NoZ (c : Nat) : Prop := (0x040 ≤ c ∧ c ≤ 0x087) ∨ (0x08A ≤ c ∧ c ≤ 0x08F) ∨ (0x091 ≤ c ∧ c ≤ 0x0DC)
  ∨ (0x10D ≤ c ∧ c ≤ 0x113) ∨ (0x116 ≤ c ∧ c ≤ 0x11B)
abbrev NoC (c : Nat) : Prop := (0x040 ≤ c ∧ c ≤ 0x081) ∨ (0x084 ≤ c ∧ c ≤ 0x087) ∨ (0x091 ≤ c ∧ c ≤ 0x0DC)
  ∨ (0x10D ≤ c ∧ c ≤ 0x113) ∨ (0x116 ≤ c ∧ c ≤ 0x11B)
abbrev NoL (c : Nat) : Prop := (0x000 ≤ c ∧ c ≤ 0x030) ∨ (0x0F4 ≤ c ∧ c ≤ 0x0FF)

theorem single_unassigned {f : Fields} (h : NoCode f.s.toNat) : f.single = .error .unassignedSingle := by
  have hs := f.s.isLt
  unfold Fields.single
  split
  case h_4 => unfold Fields.single03; split <;> first | rfl | omega
  case h_14 => unfold Fields.single13; split <;> first | rfl | omega
  case h_15 => unfold Fields.single15; split <;> first | rfl | omega
  case h_17 => unfold Fields.single17; split <;> first | rfl | omega
  case h_18 => rfl
  all_goals omega

theorem single_answers (f : Fields) : Answers f.single ↔ ¬(NoCode f.s.toNat ∨ (NoZ f.s.toNat ∧ f.b24 = true)
    ∨ (NoC f.s.toNat ∧ f.b23 = true) ∨ (NoL f.s.toNat ∧ f.b22 = true)) := by
  have hs := f.s.isLt
  unfold Fields.single
  split
  case h_1 => rw [single00_answers]; grind
  case h_2 => rw [single01_answers]; grind
  case h_3 => rw [single02_answers]; grind
  case h_4 => rw [single03_answers]; grind
  case h_5 | h_6 | h_7 | h_8 => rw [repd_answers]; grind
  case h_9 => rw [single08_answers]; grind
  case h_10 => rw [single09_answers]; grind
  case h_11 => rw [single10_answers]; grind
  case h_12 => rw [single11_answers]; grind
  case h_13 => rw [single12_answers]; grind
  case h_14 => rw [single13_answers]; grind
  case h_15 => rw [single15_answers]; grind
  case h_16 => rw [single16_answers]; grind
  case h_17 => rw [single17_answers]; grind
  case h_18 => exact iff_of_false (not_answers_error _) (by grind)

/-! ### The obligations -/

/-- Bits 24 to 22 of a word are the three bits between opcode and condition. -/
theorem bits_22_3_eq_zero (w : Word) :
    bits w 22 3 = 0 ↔ w.getLsbD 24 = false ∧ w.getLsbD 23 = false ∧ w.getLsbD 22 = false := by
  constructor
  · intro h
    have bit (k : Nat) (hk : k < 3) : w.getLsbD (22 + k) = false := by
      simpa [hk] using congrArg (fun v => BitVec.getLsbD v k) h
    exact ⟨bit 2 (by decide), bit 1 (by decide), bit 0 (by decide)⟩
  · rintro ⟨h24, h23, h22⟩
    refine BitVec.eq_of_getLsbD_eq fun k hk => ?_
    interval_cases k <;> simp_all

theorem decodeFields_big {w : Word} (h : bits w 25 7 = 0b1111110#7) : decodeFields (Fields.split w) = (Fields.split w).big16 :=
  big_row _ h

theorem decodeFields_single {w : Word} (h : bits w 25 7 = 0b1111111#7) :
    decodeFields (Fields.split w) = (Fields.split w).single :=
  single_row _ h

theorem decode_big_answers {w : Word} (h : bits w 25 7 = 0b1111110#7) :
    Answers (decode w) ↔ ¬(bits w 22 3 = 0 ∧ NoInd (bits w 18 4)) := by
  rw [decode_answers, decodeFields_big h, bits_22_3_eq_zero]
  by_cases hb : w.getLsbD 24 = false ∧ w.getLsbD 23 = false ∧ w.getLsbD 22 = false
  · rw [big16_indirect hb.1 hb.2.1 hb.2.2]
    by_cases hc : NoInd (bits w 18 4)
    · rw [indirect_unassigned hc]
      exact iff_of_false (not_answers_error _) (not_not_intro ⟨hb, hc⟩)
    · exact iff_of_true (indirect_answers hc) fun h => hc h.2
  · exact iff_of_true (big16_answers hb) fun h => hb h.1

/-- Settles O1: each row reads back the fields it is written with, and a word keeps its fields. -/
theorem decodeOfEncodeIsIdentity : Obligations.DecodeOfEncodeIsIdentity :=
  fun i h => (roundTrip i).decode_encode h

/-- Settles O2: row by row, what a reader of fields answers is well-formed under its first name. -/
theorem decodedInstructionIsWellFormed : Obligations.DecodedInstructionIsWellFormed :=
  fun _ _ h => decode_wellFormed h

/-- Settles O3: the kernel reads the eleven words. -/
theorem writtenOutWordsDecode : Obligations.WrittenOutWordsDecode := by
  unfold Obligations.WrittenOutWordsDecode
  decide +kernel

/-- Settles O4: the two last primary opcodes by their tables, the others answer always. -/
theorem unassignedWordsAreExactlyRejected : Obligations.UnassignedWordsAreExactlyRejected := by
  refine ⟨fun w hop hcode => ?_, fun w hop hb hc => ?_, fun w hop => ?_, fun w hop => ?_, fun w hop => ?_⟩
  · rw [decode_error_iff, decodeFields_single hop]
    exact single_unassigned hcode
  · obtain ⟨h24, h23, h22⟩ := (bits_22_3_eq_zero w).mp hb
    rw [decode_error_iff, decodeFields_big hop, big16_indirect h24 h23 h22]
    exact indirect_unassigned hc
  · exact decode_answers.mpr (decodeFields_answers hop)
  · exact decode_big_answers hop
  · refine Iff.trans decode_answers ?_
    rw [decodeFields_single hop]
    exact single_answers _

end Sys2Proof.Laws
end


section
/-!
PROOFS. What every step keeps: the well-formed state (10_state.md) and with it the ROM; what reset leaves; and which
instruction a step runs (43_tasks_repeat_counter.md).
-/

set_option Elab.async false

namespace Sys2Proof.Machine

open Sys2Proof

variable {s t : State}

/-! ### The instructions with a shape of their own keep a state well-formed -/

/-- The states that an outcome may go on with are well-formed. -/
abbrev Out.sound (o : Out) : Prop := o.keeps fun u => u.wf = true

theorem keeps_mixOp (h : s.wf = true) (f : DualP) (terms : Mix → MixTerms) : Out.sound (s.mixOp f terms) :=
  State.keeps_withOperands h _ _ _ fun _ u hu =>
    State.keeps_finishD hu (c := { u.cog with mix := u.cog.mix.step }) (State.wf_cog hu) _ _ _

theorem keeps_locate (h : s.wf = true) (f : DualP) (shift : Nat) : Out.sound (s.locate f shift) :=
  State.keeps_withOperands h _ _ _ fun _ _ hu => State.keeps_finishD hu (State.wf_cog hu) _ _ _

theorem keeps_setInds (h : s.wf = true) (a b : IndReg → IndReg) : Out.sound (s.setInds a b) :=
  State.keeps_finish h (c := { s.cog with inda := a s.cog.inda, indb := b s.cog.indb }) (State.wf_cog h) _

theorem keeps_readCount (h : s.wf = true) (f : SingleZC) (value : State → Word) : Out.sound (s.readCount f value) :=
  State.keeps_withOperands h _ _ _ fun _ _ hu => State.keeps_putResult hu _ _ _ _ _

theorem keeps_readAcc (h : s.wf = true) (f : SingleZC) (value : MathUnit → Word) : Out.sound (s.readAcc f value) :=
  State.keeps_withOperands h _ _ _ fun _ _ hu => State.keeps_afterMac hu _ <| State.keeps_putResult hu _ _ _ _ _

theorem keeps_shiftAcc (h : s.wf = true) (f : SingleL) (g : Nat → MathUnit → MathUnit) : Out.sound (s.shiftAcc f g) :=
  State.keeps_withOperands h _ _ _ fun _ _ hu => State.keeps_afterMac hu _ <|
    State.keeps_finish hu (Cog.wf_withMath (State.wf_cog hu) _) _

theorem keeps_readAuxPtr (h : s.wf = true) (f : SingleZC) (ptr : Cog → Byte) : Out.sound (s.readAuxPtr f ptr) :=
  State.keeps_withOperands h _ _ _ fun _ _ hu => State.keeps_finishD hu (Cog.wf_setFlags (State.wf_cog hu) _ _ _ _) _ _ _

theorem keeps_checkAuxPtr (h : s.wf = true) (f : Zero0ZC) (ptr : Cog → Byte) : Out.sound (s.checkAuxPtr f ptr) :=
  State.keeps_conditional h _ fun _ _ hu => State.keeps_putFlags hu _ _ _ _

theorem keeps_writePtry (h : s.wf = true) (f : SingleL) (g : Byte → Byte → Byte) : Out.sound (s.writePtry f g) :=
  State.keeps_withOperands h _ _ _ fun o u hu => State.keeps_auxFree <|
    State.keeps_finish hu (c := { u.cog with ptry := g u.cog.ptry (bits o.dv 0 8) }) (State.wf_cog hu) _

theorem keeps_readPin (h : s.wf = true) (f : SingleZCL) (z c : Bool → Bool) : Out.sound (s.readPin f z c) :=
  State.keeps_withOperands h _ _ _ fun _ _ hu => State.keeps_putFlags hu _ _ _ _

theorem keeps_syncCtr (h : s.wf = true) (f : Zero0) (ctr : Cog → Ctr) : Out.sound (s.syncCtr f ctr) :=
  State.keeps_conditional h _ fun _ _ hu => State.keeps_waitFor hu _ _ <| State.keeps_finish hu (State.wf_cog hu) _

theorem keeps_pollCtr (h : s.wf = true) (f : Zero0ZC) (r : Bool) {clear : Cog → Cog}
    (hc : ∀ c, c.wf = true → (clear c).wf = true) : Out.sound (s.pollCtr f r clear) :=
  State.keeps_conditional h _ fun _ _ hu => State.keeps_finish hu (Cog.wf_setFlags (hc _ (State.wf_cog hu)) _ _ _ _) _

theorem keeps_setDac (h : s.wf = true) (f : SingleL) (n : Fin 4) : Out.sound (s.setDac f n) :=
  State.keeps_withOperands h _ _ _ fun o u hu => State.keeps_noAugd _ <| State.keeps_finish hu (c := { u.cog with
    dac := { u.cog.dac with val := u.cog.dac.val.set n (dacValue f.l o.dv), cfg := u.cog.dac.cfg.set n 0 } })
    (State.wf_cog hu) _

theorem keeps_moveWindow (h : s.wf = true) (f : SingleL) (clear : Wide → Wide) : Out.sound (s.moveWindow f clear) := by
  refine State.keeps_withOperands h _ _ _ fun o u hu => ?_
  split_ifs
  · exact State.keeps_refused _
  · exact State.keeps_finish hu (c := { u.cog with wide := clear u.cog.wide }.setWindow o.dv) (State.wf_cog hu) _

theorem keeps_lockOp (h : s.wf = true) (f : SingleCL) (v : Bool) : Out.sound (s.lockOp f v) :=
  State.keeps_withOperands h _ _ _ fun o u hu => State.keeps_atHub hu _ <|
    State.keeps_finish (State.wf_withHub hu (h := { u.hub with lockState := u.hub.lockState.set (unitOf o.dv) v })
      (State.wf_iff.mp hu).1) (Cog.wf_setFlags (State.wf_cog hu) _ _ _ _) _

theorem keeps_giveVid (h : s.wf = true) (o : Operands) : Out.sound (s.giveVid o) :=
  State.keeps_waitFor h _ _ <|
    State.keeps_finish h (c := { s.cog with vid := { s.cog.vid with next := some (o.dv, o.sv) } }) (State.wf_cog h) _

/-! Settings of the counters, accumulators, pins and DAC channels touch none of the fields in question. -/

theorem keeps_accL (h : s.wf = true) (f : DualL) (g : Word → Word → MathUnit → MathUnit) : Out.sound (s.accL f g) :=
  State.keeps_configLS h f fun _ _ _ hc => hc

theorem keeps_setCtrs (h : s.wf = true) (f : DualL) (g : Ctr → Word → Bool → Ctr) : Out.sound (s.setCtrs f g) :=
  State.keeps_configLS h f fun _ _ _ hc => hc

theorem keeps_setCtra (h : s.wf = true) (f : SingleL) (g : Ctr → Word → Bool → Ctr) : Out.sound (s.setCtra f g) :=
  State.keeps_configL h f fun _ _ hc => hc

theorem keeps_setCtrb (h : s.wf = true) (f : SingleL) (g : Ctr → Word → Bool → Ctr) : Out.sound (s.setCtrb f g) :=
  State.keeps_configL h f fun _ _ hc => hc

theorem keeps_drivePin (h : s.wf = true) (f : SingleL) (level : Bool → Task → Bool) : Out.sound (s.drivePin f level) :=
  State.keeps_configL h f fun _ _ hc => hc

theorem keeps_cfgDac (h : s.wf = true) (f : SingleL) (n : Fin 4) : Out.sound (s.cfgDac f n) :=
  State.keeps_configL h f fun _ _ hc => hc

theorem keeps_setPor (h : s.wf = true) (f : SingleL) (port : Fin 4) : Out.sound (s.setPor f port) :=
  State.keeps_configL h f fun _ _ hc => hc

/-! The hub's own instructions. -/

theorem keeps_cognew (h : s.wf = true) (f : DualC) : Out.sound (execCognew f s) := by
  refine State.keeps_withOperands h _ _ _ fun o u hu => State.keeps_atHub hu _ ?_
  dsimp only
  split
  · have hk := State.wf_startCog hu ‹_› o.dv o.sv
    exact State.keeps_finishD hk (Cog.wf_setFlags (State.wf_cog hk) _ _ _ _) _ _ _
  · exact State.keeps_finishD hu (Cog.wf_setFlags (State.wf_cog hu) _ _ _ _) _ _ _

theorem keeps_coginit (h : s.wf = true) (n : BitVec 3) (f : DualP) : Out.sound (execCoginit n f s) := by
  refine State.keeps_withOperands h _ _ _ fun o u hu => State.keeps_atHub hu _ ?_
  have hk := State.wf_startCog hu n.toFin o.dv o.sv
  dsimp only
  split
  · exact State.keeps_next hk
  · exact State.keeps_finish hk (State.wf_cog hk) _

theorem keeps_cogid (h : s.wf = true) (f : SingleZC) : Out.sound (execCogid f s) := by
  refine State.keeps_withOperands h _ _ _ fun o u hu => State.keeps_atHub hu _ ?_
  have hc := State.wf_cog hu
  dsimp only
  split
  · exact State.keeps_finish hu (Cog.wf_setFlags hc _ _ _ _) _
  · exact State.keeps_finishD hu (Cog.wf_setFlags hc _ _ _ _) _ _ _

theorem keeps_cogstop (h : s.wf = true) (f : SingleL) : Out.sound (execCogstop f s) := by
  refine State.keeps_withOperands h _ _ _ fun o u hu => State.keeps_atHub hu _ ?_
  have hk := State.wf_stopCog hu (unitOf o.dv)
  dsimp only
  split
  · exact State.keeps_next hk
  · exact State.keeps_finish hk (State.wf_cog hk) _

theorem keeps_clkset (h : s.wf = true) (f : SingleL) : Out.sound (execClkset f s) := by
  refine State.keeps_withOperands h _ _ _ fun o u hu => State.keeps_atHub hu _ ?_
  have hk := State.wf_withHub hu (h := { u.hub with clk := bits o.dv 0 9 }) (State.wf_iff.mp hu).1
  dsimp only
  split_ifs
  · exact State.keeps_next (State.wf_chipReset hk)
  · exact State.keeps_refused _
  · exact State.keeps_finish hk (State.wf_cog hk) _

theorem keeps_locknew (h : s.wf = true) (f : SingleZC) : Out.sound (execLocknew f s) := by
  refine State.keeps_withOperands h _ _ _ fun o u hu => State.keeps_atHub hu _ ?_
  have hc := State.wf_cog hu
  dsimp only
  split
  · rename_i k _
    exact State.keeps_finishD (State.wf_withHub hu (h := { u.hub with lockTaken := u.hub.lockTaken.set k true })
      (State.wf_iff.mp hu).1) (Cog.wf_setFlags hc _ _ _ _) _ _ _
  · exact State.keeps_finishD hu (Cog.wf_setFlags hc _ _ _ _) _ _ _

theorem keeps_lockret (h : s.wf = true) (f : SingleL) : Out.sound (execLockret f s) :=
  State.keeps_withOperands h _ _ _ fun o u hu => State.keeps_atHub hu _ <|
    State.keeps_finish (State.wf_withHub hu (h := { u.hub with lockTaken := u.hub.lockTaken.set (unitOf o.dv) false })
      (State.wf_iff.mp hu).1) (State.wf_cog hu) _

/-! Wide transfers and hub stores. -/

theorem keeps_rdwide (h : s.wf = true) (f : SingleL) : Out.sound (execRdwide f s) :=
  State.keeps_wideOp h f fun u _ v hc hv => State.keeps_atHub hv _ <|
    State.keeps_finish hv (c := u.cog.reload v.hub.mem u.addr) hc _

theorem keeps_rdwidec (h : s.wf = true) (f : SingleL) : Out.sound (execRdwidec f s) := by
  refine State.keeps_wideOp h f fun u _ v hc hv => ?_
  split_ifs
  · exact State.keeps_finish hv hc _
  · exact State.keeps_atHub hv _ <| State.keeps_finish hv (c := u.cog.reload v.hub.mem u.addr) hc _

theorem keeps_wrwide (h : s.wf = true) (f : SingleL) : Out.sound (execWrwide f s) :=
  State.keeps_wideOp h f fun _ _ _ hc hv => State.keeps_atHub hv _ <|
    State.keeps_finish (State.wf_withHub hv (Hub.wf_writeWide _ _ (State.wf_iff.mp hv).1)) hc _

theorem keeps_storeLong (h : s.wf = true) (f : DualL) : Out.sound (s.hubWrite f 4 fun b a v => b.writeLong a v) :=
  State.keeps_hubWrite h f 4 fun _ _ _ hm => Hub.wf_writeLong _ _ hm
theorem keeps_wrbyte (h : s.wf = true) (f : DualL) : Out.sound (execWrbyte f s) :=
  State.keeps_hubWrite h f 1 fun _ _ _ hm => Hub.wf_writeByte _ _ hm
theorem keeps_wrword (h : s.wf = true) (f : DualL) : Out.sound (execWrword f s) :=
  State.keeps_hubWrite h f 2 fun _ _ _ hm => Hub.wf_writeWord _ _ hm

/-! Tasks, counters, waiting. -/

theorem keeps_repd (h : s.wf = true) (i : BitVec 6) (f : SingleL) : Out.sound (execRepd i f s) := by
  refine State.keeps_withOperands h _ _ _ fun o u hu => ?_
  split_ifs
  · exact State.keeps_refused _
  · exact State.keeps_startRepeat hu _ _ _

theorem keeps_subcnt (h : s.wf = true) (f : SingleZC) : Out.sound (execSubcnt f s) :=
  State.keeps_withOperands h _ _ _ fun o u hu => State.keeps_finishD hu
    (Cog.wf_setFlags (c := { u.cog with chain := u.nextChain o.dv }) (State.wf_cog hu) _ _ _ _) _ _ _

theorem keeps_cmpcnt (h : s.wf = true) (f : SingleCL) : Out.sound (execCmpcnt f s) :=
  State.keeps_withOperands h _ _ _ fun o u hu => State.keeps_finish hu
    (Cog.wf_setFlags (c := { u.cog with chain := u.nextChain o.dv }) (State.wf_cog hu) _ _ _ _) _

theorem keeps_passcnt (h : s.wf = true) (f : SingleL) : Out.sound (execPasscnt f s) := by
  refine State.keeps_withOperands h _ _ _ fun o u hu => ?_
  split_ifs
  · exact State.keeps_branch hu (State.wf_cog hu) _ _
  · exact State.keeps_fallThrough hu (State.wf_cog hu) _

theorem keeps_waitcnt (h : s.wf = true) (f : DualP) : Out.sound (execWaitcnt f s) := by
  refine State.keeps_withOperands h _ _ _ fun o u hu => ?_
  split_ifs
  · exact State.keeps_finishD hu (State.wf_cog hu) _ _ _
  · exact State.keeps_hold hu _ _

theorem keeps_waitcntWc (h : s.wf = true) (f : DualP) : Out.sound (execWaitcntWc f s) := by
  refine State.keeps_withOperands h _ _ _ fun o u hu => ?_
  split_ifs
  · exact State.keeps_finishD hu (Cog.wf_setFlags (State.wf_cog hu) _ _ _ _) _ _ _
  · exact State.keeps_hold hu _ _

theorem keeps_pop (h : s.wf = true) (f : SingleZC) : Out.sound (execPop f s) :=
  State.keeps_withOperands h _ _ _ fun _ _ hu => State.keeps_popTask hu fun _ _ hv => State.keeps_putResult hv _ _ _ _ _

theorem keeps_push (h : s.wf = true) (f : SingleL) : Out.sound (execPush f s) :=
  State.keeps_withOperands h _ _ _ fun _ _ hu => State.keeps_pushTask hu _ fun _ hv =>
    State.keeps_finish hv (State.wf_cog hv) _

theorem keeps_icachex (h : s.wf = true) (f : Zero0) : Out.sound (execIcachex f s) :=
  State.keeps_conditional h _ fun _ u hu => State.keeps_finish hu (c := { u.cog with icache := { u.cog.icache with
    lines := u.cog.icache.lines.mapIdx fun _ l => { l with valid := false }, since := u.hub.hist.length } })
    (State.wf_cog hu) _

theorem keeps_cfgpins (h : s.wf = true) (n : BitVec 2) (f : DualL) : Out.sound (execCfgpins n f s) :=
  State.keeps_withOperands h _ _ _ fun o u hu => State.keeps_finish hu (c := { u.cog with opq := { u.cog.opq with
    pinsD := u.cog.opq.pinsD.set n.toFin o.dv, pinsS := u.cog.opq.pinsS.set n.toFin o.sv } }) (State.wf_cog hu) _

theorem keeps_getpix (h : s.wf = true) (f : SingleZC) : Out.sound (execGetpix f s) := by
  unfold execGetpix
  split_ifs
  · exact State.keeps_refused _
  · refine State.keeps_withOperands h _ _ _ fun o u hu => ?_
    dsimp only
    split
    · exact State.keeps_refused _
    · split
      · exact State.keeps_refused _
      · exact State.keeps_auxFree <| State.keeps_finishD hu (Cog.wf_setFlags (c := { u.cog with
          pix := u.cog.pix.step, mix := { u.cog.mix with sel := _ } }) (State.wf_cog hu) _ _ _ _) _ _ _

theorem keeps_augs (h : s.wf = true) (n : BitVec 23) : Out.sound (execAugs n s) :=
  State.keeps_finish h (Cog.wf_setTask (u := { s.task with augs := some n }) (State.wf_cog h) (Task.fits_of_same (Cog.task_fits (State.wf_cog h)) rfl rfl)) _
theorem keeps_augd (h : s.wf = true) (n : BitVec 23) : Out.sound (execAugd n s) :=
  State.keeps_finish h (Cog.wf_setTask (u := { s.task with augd := some n }) (State.wf_cog h) (Task.fits_of_same (Cog.task_fits (State.wf_cog h)) rfl rfl)) _

/-! ### Every instruction keeps a state well-formed -/

theorem exec_keeps_wf (h : s.wf = true) : ∀ i, Out.sound (exec i s)
  | .rdbyte f => show Out.sound (execRdbyte f s) from State.keeps_hubRead h _ _ _
  | .rdbytec f => show Out.sound (execRdbytec f s) from State.keeps_hubReadC h _ _ _
  | .rdword f => show Out.sound (execRdword f s) from State.keeps_hubRead h _ _ _
  | .rdwordc f => show Out.sound (execRdwordc f s) from State.keeps_hubReadC h _ _ _
  | .rdlong f => show Out.sound (execRdlong f s) from State.keeps_hubRead h _ _ _
  | .rdlongc f => show Out.sound (execRdlongc f s) from State.keeps_hubReadC h _ _ _
  | .rdaux f => show Out.sound (execRdaux f s) from State.keeps_auxLoad h _ _
  | .rdauxr f => show Out.sound (execRdauxr f s) from State.keeps_auxLoad h _ _
  | .isob f => show Out.sound (execIsob f s) from State.keeps_dualOp h _ _ _
  | .notb f => show Out.sound (execNotb f s) from State.keeps_dualOp h _ _ _
  | .clrb f => show Out.sound (execClrb f s) from State.keeps_dualOp h _ _ _
  | .setb f => show Out.sound (execSetb f s) from State.keeps_dualOp h _ _ _
  | .setbc f => show Out.sound (execSetbc f s) from State.keeps_dualOp h _ _ _
  | .setbnc f => show Out.sound (execSetbnc f s) from State.keeps_dualOp h _ _ _
  | .setbz f => show Out.sound (execSetbz f s) from State.keeps_dualOp h _ _ _
  | .setbnz f => show Out.sound (execSetbnz f s) from State.keeps_dualOp h _ _ _
  | .andn f => show Out.sound (execAndn f s) from State.keeps_dualOp h _ _ _
  | .and f => show Out.sound (execAnd f s) from State.keeps_dualOp h _ _ _
  | .or f => show Out.sound (execOr f s) from State.keeps_dualOp h _ _ _
  | .xor f => show Out.sound (execXor f s) from State.keeps_dualOp h _ _ _
  | .muxc f => show Out.sound (execMuxc f s) from State.keeps_dualOp h _ _ _
  | .muxnc f => show Out.sound (execMuxnc f s) from State.keeps_dualOp h _ _ _
  | .muxz f => show Out.sound (execMuxz f s) from State.keeps_dualOp h _ _ _
  | .muxnz f => show Out.sound (execMuxnz f s) from State.keeps_dualOp h _ _ _
  | .ror f => show Out.sound (execRor f s) from State.keeps_dualOp h _ _ _
  | .rol f => show Out.sound (execRol f s) from State.keeps_dualOp h _ _ _
  | .shr f => show Out.sound (execShr f s) from State.keeps_dualOp h _ _ _
  | .shl f => show Out.sound (execShl f s) from State.keeps_dualOp h _ _ _
  | .rcr f => show Out.sound (execRcr f s) from State.keeps_dualOp h _ _ _
  | .rcl f => show Out.sound (execRcl f s) from State.keeps_dualOp h _ _ _
  | .sar f => show Out.sound (execSar f s) from State.keeps_dualOp h _ _ _
  | .rev f => show Out.sound (execRev f s) from State.keeps_dualOp h _ _ _
  | .mov f => show Out.sound (execMov f s) from State.keeps_dualOp h _ _ _
  | .not f => show Out.sound (execNot f s) from State.keeps_dualOp h _ _ _
  | .abs f => show Out.sound (execAbs f s) from State.keeps_dualOp h _ _ _
  | .neg f => show Out.sound (execNeg f s) from State.keeps_dualOp h _ _ _
  | .negc f => show Out.sound (execNegc f s) from State.keeps_dualOp h _ _ _
  | .negnc f => show Out.sound (execNegnc f s) from State.keeps_dualOp h _ _ _
  | .negz f => show Out.sound (execNegz f s) from State.keeps_dualOp h _ _ _
  | .negnz f => show Out.sound (execNegnz f s) from State.keeps_dualOp h _ _ _
  | .add f => show Out.sound (execAdd f s) from State.keeps_dualOp h _ _ _
  | .sub f => show Out.sound (execSub f s) from State.keeps_dualOp h _ _ _
  | .addx f => show Out.sound (execAddx f s) from State.keeps_dualOp h _ _ _
  | .subx f => show Out.sound (execSubx f s) from State.keeps_dualOp h _ _ _
  | .adds f => show Out.sound (execAdds f s) from State.keeps_dualOp h _ _ _
  | .subs f => show Out.sound (execSubs f s) from State.keeps_dualOp h _ _ _
  | .addsx f => show Out.sound (execAddsx f s) from State.keeps_dualOp h _ _ _
  | .subsx f => show Out.sound (execSubsx f s) from State.keeps_dualOp h _ _ _
  | .sumc f => show Out.sound (execSumc f s) from State.keeps_dualOp h _ _ _
  | .sumnc f => show Out.sound (execSumnc f s) from State.keeps_dualOp h _ _ _
  | .sumz f => show Out.sound (execSumz f s) from State.keeps_dualOp h _ _ _
  | .sumnz f => show Out.sound (execSumnz f s) from State.keeps_dualOp h _ _ _
  | .min f => show Out.sound (execMin f s) from State.keeps_dualOp h _ _ _
  | .max f => show Out.sound (execMax f s) from State.keeps_dualOp h _ _ _
  | .mins f => show Out.sound (execMins f s) from State.keeps_dualOp h _ _ _
  | .maxs f => show Out.sound (execMaxs f s) from State.keeps_dualOp h _ _ _
  | .addabs f => show Out.sound (execAddabs f s) from State.keeps_dualOp h _ _ _
  | .subabs f => show Out.sound (execSubabs f s) from State.keeps_dualOp h _ _ _
  | .incmod f => show Out.sound (execIncmod f s) from State.keeps_dualOp h _ _ _
  | .decmod f => show Out.sound (execDecmod f s) from State.keeps_dualOp h _ _ _
  | .cmpsub f => show Out.sound (execCmpsub f s) from State.keeps_dualOp h _ _ _
  | .subr f => show Out.sound (execSubr f s) from State.keeps_dualOp h _ _ _
  | .mul f => show Out.sound (execMul f s) from State.keeps_dualOp h _ _ _
  | .scl f => show Out.sound (execScl f s) from State.keeps_dualOp h _ _ _
  | .decod2 f => show Out.sound (execDecod2 f s) from State.keeps_dualOp h _ _ _
  | .decod3 f => show Out.sound (execDecod3 f s) from State.keeps_dualOp h _ _ _
  | .decod4 f => show Out.sound (execDecod4 f s) from State.keeps_dualOp h _ _ _
  | .decod5 f => show Out.sound (execDecod5 f s) from State.keeps_dualOp h _ _ _
  | .encod f => show Out.sound (execEncod f s) from State.keeps_dualZOp h _ _ _
  | .blmask f => show Out.sound (execBlmask f s) from State.keeps_dualZOp h _ _ _
  | .onecnt f => show Out.sound (execOnecnt f s) from State.keeps_dualZOp h _ _ _
  | .zercnt f => show Out.sound (execZercnt f s) from State.keeps_dualZOp h _ _ _
  | .incpat f => show Out.sound (execIncpat f s) from State.keeps_dualCOp h _ _
  | .decpat f => show Out.sound (execDecpat f s) from State.keeps_dualCOp h _ _
  | .splitb f => show Out.sound (execSplitb f s) from State.keeps_dualPOp h _ _ _
  | .mergeb f => show Out.sound (execMergeb f s) from State.keeps_dualPOp h _ _ _
  | .splitw f => show Out.sound (execSplitw f s) from State.keeps_dualPOp h _ _ _
  | .mergew f => show Out.sound (execMergew f s) from State.keeps_dualPOp h _ _ _
  | .getnib n f => show Out.sound (execGetnib n f s) from State.keeps_dualPOp h _ _ _
  | .setnib n f => show Out.sound (execSetnib n f s) from State.keeps_dualPOp h _ _ _
  | .getword n f => show Out.sound (execGetword n f s) from State.keeps_dualPOp h _ _ _
  | .setword n f => show Out.sound (execSetword n f s) from State.keeps_dualPOp h _ _ _
  | .setwrds f => show Out.sound (execSetwrds f s) from State.keeps_dualPOp h _ _ _
  | .rolnib f => show Out.sound (execRolnib f s) from State.keeps_dualPOp h _ _ _
  | .rolbyte f => show Out.sound (execRolbyte f s) from State.keeps_dualPOp h _ _ _
  | .rolword f => show Out.sound (execRolword f s) from State.keeps_dualPOp h _ _ _
  | .sets f => show Out.sound (execSets f s) from State.keeps_dualPOp h _ _ _
  | .setd f => show Out.sound (execSetd f s) from State.keeps_dualPOp h _ _ _
  | .setx f => show Out.sound (execSetx f s) from State.keeps_dualPOp h _ _ _
  | .seti f => show Out.sound (execSeti f s) from State.keeps_dualPOp h _ _ _
  | .cognew f => show Out.sound (execCognew f s) from keeps_cognew h _
  | .waitcnt f => show Out.sound (execWaitcnt f s) from keeps_waitcnt h _
  | .waitcntWc f => show Out.sound (execWaitcntWc f s) from keeps_waitcntWc h _
  | .getbyte n f => show Out.sound (execGetbyte n f s) from State.keeps_dualPOp h _ _ _
  | .setbyte n f => show Out.sound (execSetbyte n f s) from State.keeps_dualPOp h _ _ _
  | .setbyts f => show Out.sound (execSetbyts f s) from State.keeps_dualPOp h _ _ _
  | .movbyts f => show Out.sound (execMovbyts f s) from State.keeps_dualPOp h _ _ _
  | .packrgb f => show Out.sound (execPackrgb f s) from State.keeps_dualPOp h _ _ _
  | .unpkrgb f => show Out.sound (execUnpkrgb f s) from State.keeps_dualPOp h _ _ _
  | .addpix f => show Out.sound (execAddpix f s) from keeps_mixOp h _ _
  | .mulpix f => show Out.sound (execMulpix f s) from keeps_mixOp h _ _
  | .blnpix f => show Out.sound (execBlnpix f s) from keeps_mixOp h _ _
  | .mixpix f => show Out.sound (execMixpix f s) from keeps_mixOp h _ _
  | .jmpsw f => show Out.sound (execJmpsw f s) from State.keeps_jumpSwap h _ _
  | .jmpswd f => show Out.sound (execJmpswd f s) from State.keeps_jumpSwap h _ _
  | .ijz f => show Out.sound (execIjz f s) from State.keeps_countJump h _ _ _ _
  | .ijzd f => show Out.sound (execIjzd f s) from State.keeps_countJump h _ _ _ _
  | .ijnz f => show Out.sound (execIjnz f s) from State.keeps_countJump h _ _ _ _
  | .ijnzd f => show Out.sound (execIjnzd f s) from State.keeps_countJump h _ _ _ _
  | .djz f => show Out.sound (execDjz f s) from State.keeps_countJump h _ _ _ _
  | .djzd f => show Out.sound (execDjzd f s) from State.keeps_countJump h _ _ _ _
  | .djnz f => show Out.sound (execDjnz f s) from State.keeps_countJump h _ _ _ _
  | .djnzd f => show Out.sound (execDjnzd f s) from State.keeps_countJump h _ _ _ _
  | .testb f => show Out.sound (execTestb f s) from State.keeps_dualTest h _ _
  | .testn f => show Out.sound (execTestn f s) from State.keeps_dualTest h _ _
  | .test f => show Out.sound (execTest f s) from State.keeps_dualTest h _ _
  | .cmp f => show Out.sound (execCmp f s) from State.keeps_dualTest h _ _
  | .cmpx f => show Out.sound (execCmpx f s) from State.keeps_dualTest h _ _
  | .cmps f => show Out.sound (execCmps f s) from State.keeps_dualTest h _ _
  | .cmpsx f => show Out.sound (execCmpsx f s) from State.keeps_dualTest h _ _
  | .cmpr f => show Out.sound (execCmpr f s) from State.keeps_dualTest h _ _
  | .coginit n f => show Out.sound (execCoginit n f s) from keeps_coginit h _ _
  | .waitvidImm n f => show Out.sound (execWaitvidImm n f s) from State.keeps_withOperands h _ _ _ fun _ _ hu => State.keeps_noAugd _ (keeps_giveVid hu _)
  | .waitvid f => show Out.sound (execWaitvid f s) from State.keeps_withOperands h _ _ _ fun _ _ hu => keeps_giveVid hu _
  | .waitpeq n f => show Out.sound (execWaitpeq n f s) from State.keeps_waitPort h _ _ _
  | .waitpne n f => show Out.sound (execWaitpne n f s) from State.keeps_waitPort h _ _ _
  | .wrbyte f => show Out.sound (execWrbyte f s) from keeps_wrbyte h _
  | .wrword f => show Out.sound (execWrword f s) from keeps_wrword h _
  | .wrlong f => show Out.sound (execWrlong f s) from keeps_storeLong h _
  | .frac f => show Out.sound (execFrac f s) from State.keeps_startL h _ _ _
  | .wraux f => show Out.sound (execWraux f s) from State.keeps_auxStore h _ _
  | .wrauxr f => show Out.sound (execWrauxr f s) from State.keeps_auxStore h _ _
  | .setacca f => show Out.sound (execSetacca f s) from keeps_accL h _ _
  | .setaccb f => show Out.sound (execSetaccb f s) from keeps_accL h _ _
  | .maca f => show Out.sound (execMaca f s) from keeps_accL h _ _
  | .macb f => show Out.sound (execMacb f s) from keeps_accL h _ _
  | .mul32 f => show Out.sound (execMul32 f s) from State.keeps_startL h _ _ _
  | .mul32u f => show Out.sound (execMul32u f s) from State.keeps_startL h _ _ _
  | .div32 f => show Out.sound (execDiv32 f s) from State.keeps_startL h _ _ _
  | .div32u f => show Out.sound (execDiv32u f s) from State.keeps_startL h _ _ _
  | .div64 f => show Out.sound (execDiv64 f s) from State.keeps_startL h _ _ _
  | .div64u f => show Out.sound (execDiv64u f s) from State.keeps_startL h _ _ _
  | .sqrt64 f => show Out.sound (execSqrt64 f s) from State.keeps_startL h _ _ _
  | .qsincos f => show Out.sound (execQsincos f s) from State.keeps_startL h _ _ _
  | .qarctan f => show Out.sound (execQarctan f s) from State.keeps_startL h _ _ _
  | .qrotate f => show Out.sound (execQrotate f s) from State.keeps_startL h _ _ _
  | .setsera f => show Out.sound (execSetsera f s) from State.keeps_setSer h _ _ fun _ _ h => h
  | .setserb f => show Out.sound (execSetserb f s) from State.keeps_setSer h _ _ fun _ _ h => h
  | .setctrs f => show Out.sound (execSetctrs f s) from keeps_setCtrs h _ _
  | .setwavs f => show Out.sound (execSetwavs f s) from keeps_setCtrs h _ _
  | .setfrqs f => show Out.sound (execSetfrqs f s) from keeps_setCtrs h _ _
  | .setphss f => show Out.sound (execSetphss f s) from keeps_setCtrs h _ _
  | .addphss f => show Out.sound (execAddphss f s) from keeps_setCtrs h _ _
  | .subphss f => show Out.sound (execSubphss f s) from keeps_setCtrs h _ _
  | .jp f => show Out.sound (execJp f s) from State.keeps_pinJump h _ _ _
  | .jpd f => show Out.sound (execJpd f s) from State.keeps_pinJump h _ _ _
  | .jnp f => show Out.sound (execJnp f s) from State.keeps_pinJump h _ _ _
  | .jnpd f => show Out.sound (execJnpd f s) from State.keeps_pinJump h _ _ _
  | .cfgpins n f => show Out.sound (execCfgpins n f s) from keeps_cfgpins h _ _
  | .jmptask f => show Out.sound (execJmptask f s) from State.keeps_withOperands h _ _ _ fun _ _ hu => State.keeps_jumpTasks hu _ _
  | .setxfr f => show Out.sound (execSetxfr f s) from State.keeps_configLS h _ fun _ _ _ h => h
  | .setmix f => show Out.sound (execSetmix f s) from State.keeps_configLS h _ fun _ _ _ h => h
  | .jz f => show Out.sound (execJz f s) from State.keeps_testJump h _ _ _
  | .jzd f => show Out.sound (execJzd f s) from State.keeps_testJump h _ _ _
  | .jnz f => show Out.sound (execJnz f s) from State.keeps_testJump h _ _ _
  | .jnzd f => show Out.sound (execJnzd f s) from State.keeps_testJump h _ _ _
  | .locbase f => show Out.sound (execLocbase f s) from State.keeps_withOperands h _ _ _ fun _ _ hu => State.keeps_finishD hu (State.wf_cog hu) _ _ _
  | .locbyte f => show Out.sound (execLocbyte f s) from keeps_locate h _ _
  | .locword f => show Out.sound (execLocword f s) from keeps_locate h _ _
  | .loclong f => show Out.sound (execLoclong f s) from keeps_locate h _ _
  | .jmplist f => show Out.sound (execJmplist f s) from State.keeps_withOperands h _ _ _ fun _ _ hu => State.keeps_branch hu (State.wf_cog hu) _ _
  | .locinst f => show Out.sound (execLocinst f s) from State.keeps_withOperands h _ _ _ fun _ _ hu => State.keeps_finishD hu (State.wf_cog hu) _ _ _
  | .reps n k => show Out.sound (execReps n k s) from State.keeps_noAugs _ (State.keeps_startRepeat h _ _ _)
  | .augs n => show Out.sound (execAugs n s) from keeps_augs h _
  | .augd n => show Out.sound (execAugd n s) from keeps_augd h _
  | .fixinda f => show Out.sound (execFixinda f s) from keeps_setInds h _ _
  | .fixindb f => show Out.sound (execFixindb f s) from keeps_setInds h _ _
  | .fixinds f => show Out.sound (execFixinds f s) from keeps_setInds h _ _
  | .setindaAbs f => show Out.sound (execSetindaAbs f s) from keeps_setInds h _ _
  | .setindaRel f => show Out.sound (execSetindaRel f s) from keeps_setInds h _ _
  | .setindbAbs f => show Out.sound (execSetindbAbs f s) from keeps_setInds h _ _
  | .setindbRel f => show Out.sound (execSetindbRel f s) from keeps_setInds h _ _
  | .setindsAbsAbs f => show Out.sound (execSetindsAbsAbs f s) from keeps_setInds h _ _
  | .setindsAbsRel f => show Out.sound (execSetindsAbsRel f s) from keeps_setInds h _ _
  | .setindsRelAbs f => show Out.sound (execSetindsRelAbs f s) from keeps_setInds h _ _
  | .setindsRelRel f => show Out.sound (execSetindsRelRel f s) from keeps_setInds h _ _
  | .locptraAbs f => show Out.sound (execLocptraAbs f s) from State.keeps_locPtr h _ _ fun _ _ h => h
  | .locptraRel f => show Out.sound (execLocptraRel f s) from State.keeps_locPtr h _ _ fun _ _ h => h
  | .locptrbAbs f => show Out.sound (execLocptrbAbs f s) from State.keeps_locPtr h _ _ fun _ _ h => h
  | .locptrbRel f => show Out.sound (execLocptrbRel f s) from State.keeps_locPtr h _ _ fun _ _ h => h
  | .jmpAbs f => show Out.sound (execJmpAbs f s) from State.keeps_jumpBig h _ _ _
  | .jmpRel f => show Out.sound (execJmpRel f s) from State.keeps_jumpBig h _ _ _
  | .jmpdAbs f => show Out.sound (execJmpdAbs f s) from State.keeps_jumpBig h _ _ _
  | .jmpdRel f => show Out.sound (execJmpdRel f s) from State.keeps_jumpBig h _ _ _
  | .callAbs f => show Out.sound (execCallAbs f s) from State.keeps_callBig h _ _ _ _
  | .callRel f => show Out.sound (execCallRel f s) from State.keeps_callBig h _ _ _ _
  | .calldAbs f => show Out.sound (execCalldAbs f s) from State.keeps_callBig h _ _ _ _
  | .calldRel f => show Out.sound (execCalldRel f s) from State.keeps_callBig h _ _ _ _
  | .callaAbs f => show Out.sound (execCallaAbs f s) from State.keeps_callBig h _ _ _ _
  | .callaRel f => show Out.sound (execCallaRel f s) from State.keeps_callBig h _ _ _ _
  | .calladAbs f => show Out.sound (execCalladAbs f s) from State.keeps_callBig h _ _ _ _
  | .calladRel f => show Out.sound (execCalladRel f s) from State.keeps_callBig h _ _ _ _
  | .callbAbs f => show Out.sound (execCallbAbs f s) from State.keeps_callBig h _ _ _ _
  | .callbRel f => show Out.sound (execCallbRel f s) from State.keeps_callBig h _ _ _ _
  | .callbdAbs f => show Out.sound (execCallbdAbs f s) from State.keeps_callBig h _ _ _ _
  | .callbdRel f => show Out.sound (execCallbdRel f s) from State.keeps_callBig h _ _ _ _
  | .callxAbs f => show Out.sound (execCallxAbs f s) from State.keeps_callBig h _ _ _ _
  | .callxRel f => show Out.sound (execCallxRel f s) from State.keeps_callBig h _ _ _ _
  | .callxdAbs f => show Out.sound (execCallxdAbs f s) from State.keeps_callBig h _ _ _ _
  | .callxdRel f => show Out.sound (execCallxdRel f s) from State.keeps_callBig h _ _ _ _
  | .callyAbs f => show Out.sound (execCallyAbs f s) from State.keeps_callBig h _ _ _ _
  | .callyRel f => show Out.sound (execCallyRel f s) from State.keeps_callBig h _ _ _ _
  | .callydAbs f => show Out.sound (execCallydAbs f s) from State.keeps_callBig h _ _ _ _
  | .callydRel f => show Out.sound (execCallydRel f s) from State.keeps_callBig h _ _ _ _
  | .cogid f => show Out.sound (execCogid f s) from keeps_cogid h _
  | .taskid f => show Out.sound (execTaskid f s) from State.keeps_readInto h _ _ fun _ h => h
  | .locknew f => show Out.sound (execLocknew f s) from keeps_locknew h _
  | .getlfsr f => show Out.sound (execGetlfsr f s) from State.keeps_singleOp h _ _ _
  | .getcnt f => show Out.sound (execGetcnt f s) from keeps_readCount h _ _
  | .getcntx f => show Out.sound (execGetcntx f s) from keeps_readCount h _ _
  | .getacal f => show Out.sound (execGetacal f s) from keeps_readAcc h _ _
  | .getacah f => show Out.sound (execGetacah f s) from keeps_readAcc h _ _
  | .getacbl f => show Out.sound (execGetacbl f s) from keeps_readAcc h _ _
  | .getacbh f => show Out.sound (execGetacbh f s) from keeps_readAcc h _ _
  | .getptra f => show Out.sound (execGetptra f s) from State.keeps_readInto h _ _ fun _ h => h
  | .getptrb f => show Out.sound (execGetptrb f s) from State.keeps_readInto h _ _ fun _ h => h
  | .getptrx f => show Out.sound (execGetptrx f s) from keeps_readAuxPtr h _ _
  | .getptry f => show Out.sound (execGetptry f s) from keeps_readAuxPtr h _ _
  | .serina f => show Out.sound (execSerina f s) from State.keeps_serIn h _ _ fun _ _ h => h
  | .serinb f => show Out.sound (execSerinb f s) from State.keeps_serIn h _ _ fun _ _ h => h
  | .getmull f => show Out.sound (execGetmull f s) from State.keeps_readResult h _ _ _
  | .getmulh f => show Out.sound (execGetmulh f s) from State.keeps_readResult h _ _ _
  | .getdivq f => show Out.sound (execGetdivq f s) from State.keeps_readResult h _ _ _
  | .getdivr f => show Out.sound (execGetdivr f s) from State.keeps_readResult h _ _ _
  | .getsqrt f => show Out.sound (execGetsqrt f s) from State.keeps_readResult h _ _ _
  | .getqx f => show Out.sound (execGetqx f s) from State.keeps_readResult h _ _ _
  | .getqy f => show Out.sound (execGetqy f s) from State.keeps_readResult h _ _ _
  | .getqz f => show Out.sound (execGetqz f s) from State.keeps_readResult h _ _ _
  | .getphsa f => show Out.sound (execGetphsa f s) from State.keeps_readInto h _ _ fun _ h => h
  | .getphza f => show Out.sound (execGetphza f s) from State.keeps_readInto h _ _ fun _ h => h
  | .getcosa f => show Out.sound (execGetcosa f s) from State.keeps_readInto h _ _ fun _ h => h
  | .getsina f => show Out.sound (execGetsina f s) from State.keeps_readInto h _ _ fun _ h => h
  | .getphsb f => show Out.sound (execGetphsb f s) from State.keeps_readInto h _ _ fun _ h => h
  | .getphzb f => show Out.sound (execGetphzb f s) from State.keeps_readInto h _ _ fun _ h => h
  | .getcosb f => show Out.sound (execGetcosb f s) from State.keeps_readInto h _ _ fun _ h => h
  | .getsinb f => show Out.sound (execGetsinb f s) from State.keeps_readInto h _ _ fun _ h => h
  | .pushzc f => show Out.sound (execPushzc f s) from State.keeps_withOperands h _ _ _ fun _ _ _ => State.keeps_refused _
  | .popzc f => show Out.sound (execPopzc f s) from State.keeps_withOperands h _ _ _ fun _ _ _ => State.keeps_refused _
  | .subcnt f => show Out.sound (execSubcnt f s) from keeps_subcnt h _
  | .getpix f => show Out.sound (execGetpix f s) from keeps_getpix h _
  | .binbcd f => show Out.sound (execBinbcd f s) from State.keeps_singleOp h _ _ _
  | .bcdbin f => show Out.sound (execBcdbin f s) from State.keeps_singleOp h _ _ _
  | .bingry f => show Out.sound (execBingry f s) from State.keeps_singleOp h _ _ _
  | .grybin f => show Out.sound (execGrybin f s) from State.keeps_singleOp h _ _ _
  | .eswap4 f => show Out.sound (execEswap4 f s) from State.keeps_singleOp h _ _ _
  | .eswap8 f => show Out.sound (execEswap8 f s) from State.keeps_singleOp h _ _ _
  | .seussf f => show Out.sound (execSeussf f s) from State.keeps_singleOp h _ _ _
  | .seussr f => show Out.sound (execSeussr f s) from State.keeps_singleOp h _ _ _
  | .incd f => show Out.sound (execIncd f s) from State.keeps_singleOp h _ _ _
  | .decd f => show Out.sound (execDecd f s) from State.keeps_singleOp h _ _ _
  | .incds f => show Out.sound (execIncds f s) from State.keeps_singleOp h _ _ _
  | .decds f => show Out.sound (execDecds f s) from State.keeps_singleOp h _ _ _
  | .pop f => show Out.sound (execPop f s) from keeps_pop h _
  | .repd k f => show Out.sound (execRepd k f s) from keeps_repd h _ _
  | .repdInf k f => show Out.sound (execRepdInf k f s) from State.keeps_conditional h _ fun _ _ hu => State.keeps_startRepeat hu _ _ _
  | .clkset f => show Out.sound (execClkset f s) from keeps_clkset h _
  | .cogstop f => show Out.sound (execCogstop f s) from keeps_cogstop h _
  | .lockset f => show Out.sound (execLockset f s) from keeps_lockOp h _ _
  | .lockclr f => show Out.sound (execLockclr f s) from keeps_lockOp h _ _
  | .lockret f => show Out.sound (execLockret f s) from keeps_lockret h _
  | .rdwidec f => show Out.sound (execRdwidec f s) from keeps_rdwidec h _
  | .rdwide f => show Out.sound (execRdwide f s) from keeps_rdwide h _
  | .wrwide f => show Out.sound (execWrwide f s) from keeps_wrwide h _
  | .getp f => show Out.sound (execGetp f s) from keeps_readPin h _ _ _
  | .getnp f => show Out.sound (execGetnp f s) from keeps_readPin h _ _ _
  | .serouta f => show Out.sound (execSerouta f s) from State.keeps_serOut h _ _ fun _ _ h => h
  | .seroutb f => show Out.sound (execSeroutb f s) from State.keeps_serOut h _ _ fun _ _ h => h
  | .cmpcnt f => show Out.sound (execCmpcnt f s) from keeps_cmpcnt h _
  | .waitpx f => show Out.sound (execWaitpx f s) from State.keeps_waitEdge h _ _
  | .waitpr f => show Out.sound (execWaitpr f s) from State.keeps_waitEdge h _ _
  | .waitpf f => show Out.sound (execWaitpf f s) from State.keeps_waitEdge h _ _
  | .setzc f => show Out.sound (execSetzc f s) from State.keeps_withOperands h _ _ _ fun _ _ hu => State.keeps_putFlags hu _ _ _ _
  | .setmap f => show Out.sound (execSetmap f s) from State.keeps_configL h _ fun _ _ h => h
  | .setxch f => show Out.sound (execSetxch f s) from State.keeps_configL h _ fun _ _ h => h
  | .settask f => show Out.sound (execSettask f s) from State.keeps_configL h _ fun _ _ h => h
  | .setrace f => show Out.sound (execSetrace f s) from State.keeps_configL h _ fun _ _ h => h
  | .saracca f => show Out.sound (execSaracca f s) from keeps_shiftAcc h _ _
  | .saraccb f => show Out.sound (execSaraccb f s) from keeps_shiftAcc h _ _
  | .saraccs f => show Out.sound (execSaraccs f s) from keeps_shiftAcc h _ _
  | .setptra f => show Out.sound (execSetptra f s) from State.keeps_configL h _ fun _ _ h => h
  | .setptrb f => show Out.sound (execSetptrb f s) from State.keeps_configL h _ fun _ _ h => h
  | .addptra f => show Out.sound (execAddptra f s) from State.keeps_configL h _ fun _ _ h => h
  | .addptrb f => show Out.sound (execAddptrb f s) from State.keeps_configL h _ fun _ _ h => h
  | .subptra f => show Out.sound (execSubptra f s) from State.keeps_configL h _ fun _ _ h => h
  | .subptrb f => show Out.sound (execSubptrb f s) from State.keeps_configL h _ fun _ _ h => h
  | .setwide f => show Out.sound (execSetwide f s) from keeps_moveWindow h _ _
  | .setwidz f => show Out.sound (execSetwidz f s) from keeps_moveWindow h _ _
  | .setptrx f => show Out.sound (execSetptrx f s) from State.keeps_configL h _ fun _ _ h => h
  | .setptry f => show Out.sound (execSetptry f s) from keeps_writePtry h _ _
  | .addptrx f => show Out.sound (execAddptrx f s) from State.keeps_configL h _ fun _ _ h => h
  | .addptry f => show Out.sound (execAddptry f s) from keeps_writePtry h _ _
  | .subptrx f => show Out.sound (execSubptrx f s) from State.keeps_configL h _ fun _ _ h => h
  | .subptry f => show Out.sound (execSubptry f s) from keeps_writePtry h _ _
  | .passcnt f => show Out.sound (execPasscnt f s) from keeps_passcnt h _
  | .wait f => show Out.sound (execWait f s) from State.keeps_withOperands h _ _ _ fun _ _ hu => State.keeps_finish hu (State.wf_cog hu) _
  | .offp f => show Out.sound (execOffp f s) from State.keeps_configL h _ fun _ _ h => h
  | .notp f => show Out.sound (execNotp f s) from keeps_drivePin h _ _
  | .clrp f => show Out.sound (execClrp f s) from keeps_drivePin h _ _
  | .setp f => show Out.sound (execSetp f s) from keeps_drivePin h _ _
  | .setpc f => show Out.sound (execSetpc f s) from keeps_drivePin h _ _
  | .setpnc f => show Out.sound (execSetpnc f s) from keeps_drivePin h _ _
  | .setpz f => show Out.sound (execSetpz f s) from keeps_drivePin h _ _
  | .setpnz f => show Out.sound (execSetpnz f s) from keeps_drivePin h _ _
  | .div64d f => show Out.sound (execDiv64d f s) from State.keeps_start1 h _ _ _
  | .sqrt32 f => show Out.sound (execSqrt32 f s) from State.keeps_start1 h _ _ _
  | .qlog f => show Out.sound (execQlog f s) from State.keeps_start1 h _ _ _
  | .qexp f => show Out.sound (execQexp f s) from State.keeps_start1 h _ _ _
  | .setqi f => show Out.sound (execSetqi f s) from State.keeps_start1 h _ _ _
  | .setqz f => show Out.sound (execSetqz f s) from State.keeps_start1 h _ _ _
  | .cfgdacs f => show Out.sound (execCfgdacs f s) from State.keeps_configL h _ fun _ _ h => h
  | .setdacs f => show Out.sound (execSetdacs f s) from State.keeps_configL h _ fun _ _ h => h
  | .cfgdac0 f => show Out.sound (execCfgdac0 f s) from keeps_cfgDac h _ _
  | .cfgdac1 f => show Out.sound (execCfgdac1 f s) from keeps_cfgDac h _ _
  | .cfgdac2 f => show Out.sound (execCfgdac2 f s) from keeps_cfgDac h _ _
  | .cfgdac3 f => show Out.sound (execCfgdac3 f s) from keeps_cfgDac h _ _
  | .setdac0 f => show Out.sound (execSetdac0 f s) from keeps_setDac h _ _
  | .setdac1 f => show Out.sound (execSetdac1 f s) from keeps_setDac h _ _
  | .setdac2 f => show Out.sound (execSetdac2 f s) from keeps_setDac h _ _
  | .setdac3 f => show Out.sound (execSetdac3 f s) from keeps_setDac h _ _
  | .setctra f => show Out.sound (execSetctra f s) from keeps_setCtra h _ _
  | .setwava f => show Out.sound (execSetwava f s) from keeps_setCtra h _ _
  | .setfrqa f => show Out.sound (execSetfrqa f s) from keeps_setCtra h _ _
  | .setphsa f => show Out.sound (execSetphsa f s) from keeps_setCtra h _ _
  | .addphsa f => show Out.sound (execAddphsa f s) from keeps_setCtra h _ _
  | .subphsa f => show Out.sound (execSubphsa f s) from keeps_setCtra h _ _
  | .setvid f => show Out.sound (execSetvid f s) from State.keeps_configL h _ fun _ _ h => h
  | .setvidy f => show Out.sound (execSetvidy f s) from State.keeps_configL h _ fun _ _ h => h
  | .setctrb f => show Out.sound (execSetctrb f s) from keeps_setCtrb h _ _
  | .setwavb f => show Out.sound (execSetwavb f s) from keeps_setCtrb h _ _
  | .setfrqb f => show Out.sound (execSetfrqb f s) from keeps_setCtrb h _ _
  | .setphsb f => show Out.sound (execSetphsb f s) from keeps_setCtrb h _ _
  | .addphsb f => show Out.sound (execAddphsb f s) from keeps_setCtrb h _ _
  | .subphsb f => show Out.sound (execSubphsb f s) from keeps_setCtrb h _ _
  | .setvidi f => show Out.sound (execSetvidi f s) from State.keeps_configL h _ fun _ _ h => h
  | .setvidq f => show Out.sound (execSetvidq f s) from State.keeps_configL h _ fun _ _ h => h
  | .setpix f => show Out.sound (execSetpix f s) from State.keeps_configL h _ fun _ _ h => h
  | .setpixz f => show Out.sound (execSetpixz f s) from State.keeps_configL h _ fun _ _ h => h
  | .setpixu f => show Out.sound (execSetpixu f s) from State.keeps_configL h _ fun _ _ h => h
  | .setpixv f => show Out.sound (execSetpixv f s) from State.keeps_configL h _ fun _ _ h => h
  | .setpixa f => show Out.sound (execSetpixa f s) from State.keeps_configL h _ fun _ _ h => h
  | .setpixr f => show Out.sound (execSetpixr f s) from State.keeps_configL h _ fun _ _ h => h
  | .setpixg f => show Out.sound (execSetpixg f s) from State.keeps_configL h _ fun _ _ h => h
  | .setpixb f => show Out.sound (execSetpixb f s) from State.keeps_configL h _ fun _ _ h => h
  | .setpora f => show Out.sound (execSetpora f s) from keeps_setPor h _ _
  | .setporb f => show Out.sound (execSetporb f s) from keeps_setPor h _ _
  | .setporc f => show Out.sound (execSetporc f s) from keeps_setPor h _ _
  | .setpord f => show Out.sound (execSetpord f s) from keeps_setPor h _ _
  | .push f => show Out.sound (execPush f s) from keeps_push h _
  | .jmpReg f => show Out.sound (execJmpReg f s) from State.keeps_jumpReg h _ _
  | .jmpdReg f => show Out.sound (execJmpdReg f s) from State.keeps_jumpReg h _ _
  | .callReg f => show Out.sound (execCallReg f s) from State.keeps_callReg h _ _ _
  | .calldReg f => show Out.sound (execCalldReg f s) from State.keeps_callReg h _ _ _
  | .callaReg f => show Out.sound (execCallaReg f s) from State.keeps_callReg h _ _ _
  | .calladReg f => show Out.sound (execCalladReg f s) from State.keeps_callReg h _ _ _
  | .callbReg f => show Out.sound (execCallbReg f s) from State.keeps_callReg h _ _ _
  | .callbdReg f => show Out.sound (execCallbdReg f s) from State.keeps_callReg h _ _ _
  | .callxReg f => show Out.sound (execCallxReg f s) from State.keeps_callReg h _ _ _
  | .callxdReg f => show Out.sound (execCallxdReg f s) from State.keeps_callReg h _ _ _
  | .callyReg f => show Out.sound (execCallyReg f s) from State.keeps_callReg h _ _ _
  | .callydReg f => show Out.sound (execCallydReg f s) from State.keeps_callReg h _ _ _
  | .reta f => show Out.sound (execReta f s) from State.keeps_ret h _ _ _
  | .retad f => show Out.sound (execRetad f s) from State.keeps_ret h _ _ _
  | .retb f => show Out.sound (execRetb f s) from State.keeps_ret h _ _ _
  | .retbd f => show Out.sound (execRetbd f s) from State.keeps_ret h _ _ _
  | .retx f => show Out.sound (execRetx f s) from State.keeps_ret h _ _ _
  | .retxd f => show Out.sound (execRetxd f s) from State.keeps_ret h _ _ _
  | .rety f => show Out.sound (execRety f s) from State.keeps_ret h _ _ _
  | .retyd f => show Out.sound (execRetyd f s) from State.keeps_ret h _ _ _
  | .ret f => show Out.sound (execRet f s) from State.keeps_ret h _ _ _
  | .retd f => show Out.sound (execRetd f s) from State.keeps_ret h _ _ _
  | .polctra f => show Out.sound (execPolctra f s) from keeps_pollCtr h _ _ fun _ h => h
  | .polctrb f => show Out.sound (execPolctrb f s) from keeps_pollCtr h _ _ fun _ h => h
  | .polvid f => show Out.sound (execPolvid f s) from State.keeps_conditional h _ fun _ _ hu => State.keeps_putFlags hu _ _ _ _
  | .capctra f => show Out.sound (execCapctra f s) from State.keeps_config0 h _ fun _ h => h
  | .capctrb f => show Out.sound (execCapctrb f s) from State.keeps_config0 h _ fun _ h => h
  | .capctrs f => show Out.sound (execCapctrs f s) from State.keeps_config0 h _ fun _ h => h
  | .setpixw f => show Out.sound (execSetpixw f s) from State.keeps_config0 h _ fun _ h => h
  | .clracca f => show Out.sound (execClracca f s) from State.keeps_config0 h _ fun _ h => h
  | .clraccb f => show Out.sound (execClraccb f s) from State.keeps_config0 h _ fun _ h => h
  | .clraccs f => show Out.sound (execClraccs f s) from State.keeps_config0 h _ fun _ h => h
  | .chkptrx f => show Out.sound (execChkptrx f s) from keeps_checkAuxPtr h _ _
  | .chkptry f => show Out.sound (execChkptry f s) from keeps_checkAuxPtr h _ _
  | .synctra f => show Out.sound (execSynctra f s) from keeps_syncCtr h _ _
  | .synctrb f => show Out.sound (execSynctrb f s) from keeps_syncCtr h _ _
  | .dcachex f => show Out.sound (execDcachex f s) from State.keeps_config0 h _ fun _ h => h
  | .icachex f => show Out.sound (execIcachex f s) from keeps_icachex h _
  | .icachep f => show Out.sound (execIcachep f s) from State.keeps_config0 h _ fun _ h => h
  | .icachen f => show Out.sound (execIcachen f s) from State.keeps_config0 h _ fun _ h => h
  | .nop => show Out.sound (execNop s) from State.keeps_hubRead h _ _ _
  | .mergen f => show Out.sound (execMergen f s) from State.keeps_dualPOp h _ _ _
  | .splitn f => show Out.sound (execSplitn f s) from State.keeps_dualPOp h _ _ _
  | .switch => show Out.sound (execSwitch s) from State.keeps_jumpSwap h _ _
  | .switchd => show Out.sound (execSwitchd s) from State.keeps_jumpSwap h _ _
  | .pusha f => show Out.sound (execPusha f s) from keeps_storeLong h _
  | .pushb f => show Out.sound (execPushb f s) from keeps_storeLong h _
  | .popa f => show Out.sound (execPopa f s) from State.keeps_hubRead h _ _ _
  | .popb f => show Out.sound (execPopb f s) from State.keeps_hubRead h _ _ _
  | .pushx f => show Out.sound (execPushx f s) from State.keeps_auxStore h _ _
  | .pushy f => show Out.sound (execPushy f s) from State.keeps_auxStore h _ _
  | .popx f => show Out.sound (execPopx f s) from State.keeps_auxLoad h _ _
  | .popy f => show Out.sound (execPopy f s) from State.keeps_auxLoad h _ _

/-! ### The turn -/

theorem State.wf_loadWord (h : s.wf = true) (e : Slot) {rest : List Slot} (hr : rest.length ≤ 3) :
    (s.loadWord e rest).wf = true := by
  have hc := Cog.wf_iff.mp (State.wf_cog h)
  exact State.wf_setCog h (Cog.wf_iff.mpr ⟨hc.1, hc.2.1, hc.2.2.1, hc.2.2.2.1, hr⟩)

theorem State.keeps_undefined (h : s.wf = true) (e : DecodeError) (w : Word) : Out.sound (s.undefined e w) := by
  unfold State.undefined
  split_ifs
  · exact State.keeps_fault _
  · exact State.keeps_finish h (c := { s.cog with stage4 := { s.cog.stage4 with cond := false } }) (State.wf_cog h) _

theorem State.keeps_executeWord (h : s.wf = true) (w : Word) : Out.sound (s.executeWord w) := by
  unfold State.executeWord
  split
  · exact exec_keeps_wf h _
  · exact State.keeps_undefined h _ _

theorem State.wf_passCancelled (h : s.wf = true) : s.passCancelled.wf = true :=
  State.wf_setCog h (Cog.wf_endCycle (c := { s.cog with stage4 := { s.cog.stage4 with
    cond := Config.freeBit s.turn 0x5100 } }) (State.wf_cog h) 0)

theorem State.wf_endTurn (h : s.wf = true) (fetching : Bool) : (s.endTurn fetching).wf = true := by
  unfold State.endTurn
  dsimp only
  split_ifs
  · exact h
  · exact State.wf_setCog h (State.wf_prefetch (c := { s.cog with stage4 := _ }) (State.wf_cog h) s)
  · exact State.wf_setCog h (c := { s.cog with stage4 := _ }) (State.wf_cog h)

theorem State.keeps_closing {o : Out} (h : o.sound) : Out.sound (State.closing o) := by
  cases o with
  | next u => exact State.keeps_next (State.wf_endTurn (h u rfl) false)
  | fault e => exact State.keeps_fault e
  | refused r => exact State.keeps_refused r

theorem State.keeps_runSlot (h : s.wf = true) (e : Slot) {rest : List Slot} (hr : rest.length ≤ 3) :
    Out.sound (s.runSlot e rest) := by
  have ht := State.wf_loadWord h e hr
  unfold State.runSlot
  dsimp only
  split_ifs
  · exact State.keeps_next (State.wf_passCancelled ht)
  · exact State.keeps_refused _
  · exact State.keeps_executeWord ht _

theorem State.keeps_runCog (h : s.wf = true) : Out.sound s.runCog := by
  have hp := State.wf_setCog h (State.wf_prefetch (State.wf_cog h) s)
  unfold State.runCog
  dsimp only
  split
  · exact State.keeps_closing (State.keeps_next
      (State.wf_setCog h (c := { s.cog with pipe := { s.cog.pipe with stall := s.cog.pipe.stall - 1 } }) (State.wf_cog h)))
  split
  · exact State.keeps_closing (State.keeps_executeWord h _)
  split
  · exact State.keeps_closing (State.keeps_runSlot hp _ (Nat.le_succ 2))
  split
  · split
    · refine State.keeps_next (State.wf_endTurn (State.wf_setCog hp ?_) true)
      exact Cog.wf_of_same (State.wf_cog hp) rfl rfl rfl rfl rfl
    · exact State.keeps_next (State.wf_endTurn hp true)
  · exact State.keeps_next (State.wf_endTurn hp true)

theorem State.keeps_cogTurn (h : s.wf = true) : Out.sound s.cogTurn := by
  unfold State.cogTurn
  split
  · exact State.keeps_runCog h
  · exact State.keeps_next h
  · exact State.keeps_next h

/-! ### The clock -/

/-- The pin transfer unit writes at most one AUX long in a clock (R852). -/
theorem Xfr.aux_tick (u : Xfr) (wides : Octet Word) (aux : Sparse Word) (ptr : Byte) (port : Word) :
    (u.tick wides aux ptr port).aux = aux ∨ ∃ a v, (u.tick wides aux ptr port).aux = auxWrite aux a v := by
  unfold Xfr.tick
  dsimp only
  repeat' split
  all_goals first | exact .inl rfl | exact .inr ⟨_, _, rfl⟩

theorem Cog.wf_tickUnits {c : Cog} (h : c.wf = true) (s : State) (k : Fin 8) : (c.tickUnits s k).wf = true := by
  obtain ⟨hr, ha, ht, hs, hq⟩ := Cog.wf_iff.mp h
  refine Cog.wf_iff.mpr ⟨hr, ?_, ht, hs, hq⟩
  obtain hx | ⟨a, v, hx⟩ := c.xfr.aux_tick c.wide.regs c.aux c.ptry (s.pinLong c c.xfr.port)
  · exact (congrArg (Sparse.wfFrom _ _ _) hx).trans ha
  · exact (congrArg (Sparse.wfFrom _ _ _) hx).trans (wfFrom_auxWrite a v ha)

theorem Cog.wf_settle {c : Cog} (h : c.wf = true) (s : State) (written : List (Nat × Word)) :
    (c.settle s written).wf = true := by
  induction written with
  | nil => exact h
  | cons e rest ih =>
    unfold Cog.settle
    dsimp only
    split_ifs with hi
    · obtain ⟨hr, hrest⟩ := Cog.wf_iff.mp ih
      exact Cog.wf_iff.mpr ⟨Sparse.wfFrom_write (Nat.zero_le _) hi hr, hrest⟩
    · exact ih

theorem Cog.wf_tick {c : Cog} (h : c.wf = true) (s : State) (k : Fin 8) : (c.tick s k).wf = true := by
  unfold Cog.tick
  split
  · exact Cog.wf_tickUnits h s k
  · exact h
  · split_ifs
    · exact Cog.wf_of_same (Cog.wf_settle h s _) rfl rfl rfl rfl rfl
    · exact h

theorem Octet.get_mapIdx {α β : Type} (q : Octet α) (f : Fin 8 → α → β) (k : Fin 8) :
    (q.mapIdx f).get k = f k (q.get k) := by
  fin_cases k <;> rfl

theorem State.wf_nextClock (h : s.wf = true) : s.nextClock.wf = true := by
  rw [State.wf_iff] at h ⊢
  refine ⟨h.1, fun k => ?_⟩
  unfold State.nextClock
  rw [Octet.get_mapIdx]
  exact h.2 k

theorem State.wf_tick (h : s.wf = true) : s.tick.wf = true := by
  have hn := State.wf_nextClock h
  rw [State.wf_iff] at hn ⊢
  refine ⟨hn.1, fun k => ?_⟩
  unfold State.tick
  dsimp only
  rw [Octet.get_mapIdx]
  exact Cog.wf_tick (hn.2 k) _ _

theorem State.wf_nextTurn (h : s.wf = true) : s.nextTurn.wf = true := by
  unfold State.nextTurn
  dsimp only
  split_ifs
  · exact State.wf_tick h
  · exact h

theorem step_keeps_wf (h : s.wf = true) : Out.sound (step s) := by
  intro t ht
  unfold step State.turnOf at ht
  split at ht
  · rename_i u hu
    obtain rfl := Host.Outcome.next.inj ht
    exact State.wf_nextTurn (State.keeps_cogTurn h u hu)
  · cases ht
  · cases ht

/-! ### The ROM -/

/-- Data in canonical form from `lo` on lists no address below `lo`. -/
theorem Sparse.find?_below {α : Type} [DecidableEq α] {dflt : Nat → α} {hi lo a : Nat} {m : Sparse α}
    (hm : Sparse.wfFrom dflt hi lo m = true) (h : a < lo) : Sparse.find? m a = none := by
  induction m generalizing lo with
  | nil => rfl
  | cons e m ih =>
    simp only [Sparse.wfFrom, Bool.and_eq_true, decide_eq_true_eq] at hm
    obtain ⟨⟨⟨hlo, _⟩, _⟩, hrest⟩ := hm
    have hne : e.1 ≠ a := by omega
    simp only [Sparse.find?, hne, if_false]
    exact ih hrest (by omega)

/-- Well-formed hub memory reads as the ROM image below the RAM (R124). -/
theorem Memory.byte_rom {m : Memory} (hm : m.wf = true) {a : Nat} (h : a < ramBase) : m.byte a = Memory.unlisted a := by
  simp [Memory.byte, Sparse.read, Sparse.find?_below hm h]

/-! ### Which instruction a step runs -/

theorem step_of_cogTurn_next {u : State} (h : s.cogTurn = .next u) : step s = .next u.nextTurn := by
  simp only [step, State.turnOf, h]

theorem step_of_cogTurn_fault {e : Fault} (h : s.cogTurn = .fault e) : step s = .fault e := by
  simp only [step, State.turnOf, h]

theorem step_of_cogTurn_refused {r : Refusal} (h : s.cogTurn = .refused r) : step s = .refused r := by
  simp only [step, State.turnOf, h]

/-- An outcome is what a turn comes to: its end, or the stop. -/
structure TurnIs (s : State) (o : Out) : Prop where
  next : ∀ u, o = .next u → step s = .next (u.endTurn false).nextTurn
  fault : ∀ r, o = .fault r → step s = .fault r
  refused : ∀ r, o = .refused r → step s = .refused r

theorem turnIs_of_cogTurn {o : Out} (h : s.cogTurn = State.closing o) : TurnIs s o :=
  ⟨fun _ e => step_of_cogTurn_next (by rw [h, e]; rfl), fun _ e => step_of_cogTurn_fault (by rw [h, e]; rfl),
    fun _ e => step_of_cogTurn_refused (by rw [h, e]; rfl)⟩

/-- With three instructions in the queue the first has its turn (R390). -/
theorem turnIs_runSlot {e x y : Slot} (hr : s.cog.run = .running) (hs : s.cog.pipe.stall = 0)
    (hw : s.cog.pipe.waiting = none) (hq : (s.filled s.cog).queue = [e, x, y]) :
    TurnIs s ((s.setCog (s.prefetch s.cog)).runSlot e [x, y]) := by
  refine turnIs_of_cogTurn ?_
  have hq' : (s.prefetch s.cog).pipe.queue = [e, x, y] := hq
  simp only [State.cogTurn, hr, State.runCog, hs, hw, State.cog_setCog, hq', ne_eq, not_true, if_false,
    Option.isSome_none, Bool.false_eq_true]

/-- What waits in stage 4 runs again from the word that stands there (R398). -/
theorem turnIs_waiting {w : Waiting} (hr : s.cog.run = .running) (hs : s.cog.pipe.stall = 0)
    (hw : s.cog.pipe.waiting = some w) : TurnIs s (s.executeWord s.cog.pipe.ir) := by
  refine turnIs_of_cogTurn ?_
  simp only [State.cogTurn, hr, State.runCog, hs, hw, ne_eq, not_true, if_false, Option.isSome_some, if_true]

section
variable {e : Slot} {rest : List Slot}

theorem State.runSlot_cancelled (hc : e.cancelled = true) :
    s.runSlot e rest = .next (s.loadWord e rest).passCancelled := if_pos hc

theorem State.runSlot_rom (hc : e.cancelled = false) (hr : e.rom = true) : s.runSlot e rest = .refused .romCode := by
  simp [State.runSlot, hc, hr]

theorem State.runSlot_runs (hc : e.cancelled = false) (hr : e.rom = false) :
    s.runSlot e rest = (s.loadWord e rest).executeWord e.word := by
  simp [State.runSlot, hc, hr]
end

theorem State.executeWord_ok {w : Word} {i : Instr} (h : decode w = .ok i) : s.executeWord w = exec i s := by
  simp only [State.executeWord, h]

theorem State.executeWord_error {w : Word} {e : DecodeError} (h : decode w = .error e) :
    s.executeWord w = s.undefined e w := by
  simp only [State.executeWord, h]

theorem State.undefined_runs {e : DecodeError} {w : Word}
    (h : e = .unassignedInd ∨ condHolds (bits w 18 4) s.task.z s.task.c = true) :
    s.undefined e w = .fault .undefinedWord := by
  simp [State.undefined, h]

theorem State.undefined_passes {e : DecodeError} {w : Word}
    (h : ¬(e = .unassignedInd ∨ condHolds (bits w 18 4) s.task.z s.task.c = true)) :
    s.undefined e w = .next (s.ends { s.cog with stage4 := { s.cog.stage4 with cond := false } } 0) := by
  simp [State.undefined, h, State.finish_eq]

/-- An instruction in the queue stands as it was fetched: it is cancelled, or it is where its task will be. -/
def Slot.stands (e : Slot) (t : Fin 4) (p : Addr) : Prop := e.cancelled = true ∨ (e.task = t ∧ e.addr = p)

section
variable {c : Cog} {n : Nat} {q : Sched} {ts : Quad Task} {old : List Slot} {i : ICache} {e e0 : Slot} {rest : List Slot}

theorem State.fillQueue_stands (hs : e0.stands (slotTask q.slots q.slot) (ts.get (slotTask q.slots q.slot)).pc)
    (h : (s.fillQueue c (n + 1) q ts (e0 :: old) i).queue = e :: rest) : e = e0 := by
  unfold State.fillQueue at h
  dsimp only at h
  obtain hc | hc := hs
  · rw [if_pos hc] at h
    exact (List.cons.inj h).1.symm
  · by_cases hx : e0.cancelled = true
    · rw [if_pos hx] at h
      exact (List.cons.inj h).1.symm
    · rw [if_neg hx, if_pos hc] at h
      exact (List.cons.inj h).1.symm

/-- Where no instruction of the queue stands, the queue begins with a fresh fetch at the task's PC. -/
theorem State.fillQueue_fetches
    (hno : old = [] ∨ ∃ e0 tail, old = e0 :: tail ∧ ¬e0.stands (slotTask q.slots q.slot) (ts.get (slotTask q.slots q.slot)).pc)
    (h : (s.fillQueue c (n + 1) q ts old i).queue = e :: rest) :
    ∃ w, s.fetch c i (ts.get (slotTask q.slots q.slot)).pc (0x5000 + n) = some w ∧
      e = ⟨w.word, slotTask q.slots q.slot, (ts.get (slotTask q.slots q.slot)).pc, false, w.rom⟩ := by
  cases hf : s.fetch c i (ts.get (slotTask q.slots q.slot)).pc (0x5000 + n) with
  | none =>
    unfold State.fillQueue at h
    obtain rfl | ⟨e0, tail, rfl, hs⟩ := hno
    · simp [hf] at h
    · obtain ⟨hc, hp⟩ := not_or.mp hs
      simp [hf, hc, hp] at h
  | some w =>
    refine ⟨w, rfl, ?_⟩
    unfold State.fillQueue at h
    obtain rfl | ⟨e0, tail, rfl, hs⟩ := hno
    · simp only [hf] at h
      exact (List.cons.inj h).1.symm
    · obtain ⟨hc, hp⟩ := not_or.mp hs
      simp only [hf, hc, hp, if_false, Bool.false_eq_true] at h
      exact (List.cons.inj h).1.symm
end

/-! ### The obligations -/

/-- Settles O6: every instruction, the end of the turn and the clock keep the well-formed state. -/
theorem everyStepKeepsTheStateWellFormed : Obligations.EveryStepKeepsTheStateWellFormed :=
  fun _ t h ht => step_keeps_wf h t ht

/-- Settles O7: the kernel checks the reset state. -/
theorem resetStateIsWellFormed : Obligations.ResetStateIsWellFormed := by
  unfold Obligations.ResetStateIsWellFormed
  decide +kernel

/-- Settles O8: a well-formed memory lists no ROM address, and every step keeps it well-formed. -/
theorem noStepChangesTheRom : Obligations.NoStepChangesTheRom :=
  fun _ t h ht _ ha => Memory.byte_rom (State.wf_iff.mp (step_keeps_wf h t ht)).1 ha

/-- Settles O9: the fields of the reset state. -/
theorem resetLeavesTheBootState : Obligations.ResetLeavesTheBootState := by
  unfold Obligations.ResetLeavesTheBootState
  decide +kernel

/-- A turn in which an outcome of `exec` is what the slot comes to. -/
theorem turnIs_triple {o : Out} (h : TurnIs s o) : (∀ u, o = .next u → step s = .next (u.endTurn false).nextTurn)
    ∧ (∀ r, o = .fault r → step s = .fault r) ∧ (∀ r, o = .refused r → step s = .refused r) :=
  ⟨h.next, h.fault, h.refused⟩

/-- Settles O5: the turn of the first slot of the queue, the head of the queue, and the turn of an instruction that waits. -/
theorem stepRunsTheDecodedInstruction : Obligations.StepRunsTheDecodedInstruction := by
  refine ⟨fun s e x y hr hs hw hq => ?_, fun s e rest hq => ⟨fun e0 old ho hst => ?_, fun hno => ?_⟩,
    fun s w i hr hs hw hd => ?_⟩
  · have hturn := turnIs_runSlot hr hs hw hq
    refine ⟨fun i hc hrom hd => ?_, fun err hc hrom hd => ⟨fun hruns => ?_, fun hpass => ?_⟩, fun hc => ?_, fun hc hrom => ?_⟩
    · rw [State.runSlot_runs hc hrom, State.executeWord_ok hd] at hturn
      exact turnIs_triple hturn
    · rw [State.runSlot_runs hc hrom, State.executeWord_error hd] at hturn
      exact hturn.fault _ (State.undefined_runs hruns)
    · rw [State.runSlot_runs hc hrom, State.executeWord_error hd] at hturn
      exact hturn.next _ (State.undefined_passes hpass)
    · exact hturn.next _ (State.runSlot_cancelled hc)
    · exact hturn.refused _ (State.runSlot_rom hc hrom)
  · have hq' : (s.fillQueue s.cog (2 + 1) s.cog.sched s.cog.tasks (e0 :: old) s.cog.icache).queue = e :: rest := by
      rw [← ho]; exact hq
    exact State.fillQueue_stands hst hq'
  · exact State.fillQueue_fetches (n := 2) hno hq
  · have hturn := turnIs_waiting hr hs hw
    rw [State.executeWord_ok hd] at hturn
    exact turnIs_triple hturn

end Sys2Proof.Machine
end

section
/-!
PROOFS. What `exec` is for each instruction: its shape, with the function it computes.
-/

set_option Elab.async false

namespace Sys2Proof.Machine

open Sys2Proof

variable (s : State)

@[simp] theorem exec_rdbyte (f : Dual) : exec (.rdbyte f) s = s.hubRead f 1 Memory.readByte := rfl
@[simp] theorem exec_rdbytec (f : Dual) : exec (.rdbytec f) s = s.hubReadC f 1 lineByte := rfl
@[simp] theorem exec_rdword (f : Dual) : exec (.rdword f) s = s.hubRead f 2 Memory.readWord := rfl
@[simp] theorem exec_rdwordc (f : Dual) : exec (.rdwordc f) s = s.hubReadC f 2 lineWord := rfl
@[simp] theorem exec_rdlong (f : Dual) : exec (.rdlong f) s = s.hubRead f 4 Memory.readLong := rfl
@[simp] theorem exec_rdlongc (f : Dual) : exec (.rdlongc f) s = s.hubReadC f 4 lineLong := rfl
@[simp] theorem exec_rdaux (f : Dual) : exec (.rdaux f) s = s.auxLoad f id := rfl
@[simp] theorem exec_rdauxr (f : Dual) : exec (.rdauxr f) s = s.auxLoad f fun a => ~~~a := rfl
@[simp] theorem exec_isob (f : Dual) : exec (.isob f) s = s.dualOp f (fun a => a.withOpenC 0x08 (a.d &&& a.bit)) := rfl
@[simp] theorem exec_notb (f : Dual) : exec (.notb f) s = s.dualOp f (fun a => a.withOpenC 0x09 (a.d ^^^ a.bit)) := rfl
@[simp] theorem exec_clrb (f : Dual) :
    exec (.clrb f) s = s.dualOp f (fun a => a.withOpenC 0x0A (a.d &&& ~~~a.bit)) := rfl
@[simp] theorem exec_setb (f : Dual) : exec (.setb f) s = s.dualOp f (fun a => a.withOpenC 0x0B (a.d ||| a.bit)) := rfl
@[simp] theorem exec_setbc (f : Dual) : exec (.setbc f) s = s.dualOp f (fun a => a.withOpenC 0x0C (a.putBit a.c)) := rfl
@[simp] theorem exec_setbnc (f : Dual) :
    exec (.setbnc f) s = s.dualOp f (fun a => a.withOpenC 0x0D (a.putBit (!a.c))) := rfl
@[simp] theorem exec_setbz (f : Dual) : exec (.setbz f) s = s.dualOp f (fun a => a.withOpenC 0x0E (a.putBit a.z)) := rfl
@[simp] theorem exec_setbnz (f : Dual) :
    exec (.setbnz f) s = s.dualOp f (fun a => a.withOpenC 0x0F (a.putBit (!a.z))) := rfl
@[simp] theorem exec_andn (f : Dual) : exec (.andn f) s = s.dualOp f (fun a => .par (a.d &&& ~~~a.s)) := rfl
@[simp] theorem exec_and (f : Dual) : exec (.and f) s = s.dualOp f (fun a => .par (a.d &&& a.s)) := rfl
@[simp] theorem exec_or (f : Dual) : exec (.or f) s = s.dualOp f (fun a => .par (a.d ||| a.s)) := rfl
@[simp] theorem exec_xor (f : Dual) : exec (.xor f) s = s.dualOp f (fun a => .par (a.d ^^^ a.s)) := rfl
@[simp] theorem exec_muxc (f : Dual) : exec (.muxc f) s = s.dualOp f (fun a => .par (a.mux a.c)) := rfl
@[simp] theorem exec_muxnc (f : Dual) : exec (.muxnc f) s = s.dualOp f (fun a => .par (a.mux (!a.c))) := rfl
@[simp] theorem exec_muxz (f : Dual) : exec (.muxz f) s = s.dualOp f (fun a => .par (a.mux a.z)) := rfl
@[simp] theorem exec_muxnz (f : Dual) : exec (.muxnz f) s = s.dualOp f (fun a => .par (a.mux (!a.z))) := rfl
@[simp] theorem exec_ror (f : Dual) :
    exec (.ror f) s = s.dualOp f (fun a => .of (a.d.rotateRight a.b) (a.shiftC (a.d.getLsbD 0))) := rfl
@[simp] theorem exec_rol (f : Dual) :
    exec (.rol f) s = s.dualOp f (fun a => .of (a.d.rotateLeft a.b) (a.shiftC a.d.msb)) := rfl
@[simp] theorem exec_shr (f : Dual) :
    exec (.shr f) s = s.dualOp f (fun a => .of (a.d >>> a.b) (a.shiftC (a.d.getLsbD 0))) := rfl
@[simp] theorem exec_shl (f : Dual) :
    exec (.shl f) s = s.dualOp f (fun a => .of (a.d <<< a.b) (a.shiftC a.d.msb)) := rfl
@[simp] theorem exec_rcr (f : Dual) :
    exec (.rcr f) s =
      s.dualOp f (fun a => .of ((a.d >>> a.b) ||| (if a.c then ~~~((-1#32) >>> a.b) else 0)) (a.shiftC (a.d.getLsbD
        0))) := rfl
@[simp] theorem exec_rcl (f : Dual) :
    exec (.rcl f) s =
      s.dualOp f (fun a => .of ((a.d <<< a.b) ||| (if a.c then ~~~((-1#32) <<< a.b) else 0)) (a.shiftC a.d.msb)) := rfl
@[simp] theorem exec_sar (f : Dual) :
    exec (.sar f) s = s.dualOp f (fun a => .of (a.d.sshiftRight a.b) (a.shiftC (a.d.getLsbD 0))) := rfl
@[simp] theorem exec_rev (f : Dual) :
    exec (.rev f) s = s.dualOp f (fun a => .of (a.d.reverse >>> a.b) (a.shiftC (a.d.getLsbD 0))) := rfl
@[simp] theorem exec_mov (f : Dual) : exec (.mov f) s = s.dualOp f (fun a => .of a.s a.s.msb) := rfl
@[simp] theorem exec_not (f : Dual) : exec (.not f) s = s.dualOp f (fun a => a.withOpenC 0x21 (~~~a.s)) := rfl
@[simp] theorem exec_abs (f : Dual) : exec (.abs f) s = s.dualOp f (fun a => .of (absOf a.s) a.s.msb) := rfl
@[simp] theorem exec_neg (f : Dual) : exec (.neg f) s = s.dualOp f (fun a => a.withOpenC 0x23 (0 - a.s)) := rfl
@[simp] theorem exec_negc (f : Dual) :
    exec (.negc f) s = s.dualOp f (fun a => a.withOpenC 0x24 (if a.c then 0 - a.s else a.s)) := rfl
@[simp] theorem exec_negnc (f : Dual) :
    exec (.negnc f) s = s.dualOp f (fun a => a.withOpenC 0x25 (if a.c then a.s else 0 - a.s)) := rfl
@[simp] theorem exec_negz (f : Dual) :
    exec (.negz f) s = s.dualOp f (fun a => a.withOpenC 0x26 (if a.z then 0 - a.s else a.s)) := rfl
@[simp] theorem exec_negnz (f : Dual) :
    exec (.negnz f) s = s.dualOp f (fun a => a.withOpenC 0x27 (if a.z then a.s else 0 - a.s)) := rfl
@[simp] theorem exec_add (f : Dual) :
    exec (.add f) s = s.dualOp f (fun a => .of (a.d + a.s) (carryAdd a.d a.s false)) := rfl
@[simp] theorem exec_sub (f : Dual) :
    exec (.sub f) s = s.dualOp f (fun a => .of (a.d - a.s) (borrowSub a.d a.s false)) := rfl
@[simp] theorem exec_addx (f : Dual) :
    exec (.addx f) s = s.dualOp f (fun a => a.ext a.sumX (carryAdd a.d a.s a.c)) := rfl
@[simp] theorem exec_subx (f : Dual) :
    exec (.subx f) s = s.dualOp f (fun a => a.ext a.diffX (borrowSub a.d a.s a.c)) := rfl
@[simp] theorem exec_adds (f : Dual) : exec (.adds f) s = s.dualOp f (fun a => a.withOpenC 0x2C (a.d + a.s)) := rfl
@[simp] theorem exec_subs (f : Dual) : exec (.subs f) s = s.dualOp f (fun a => a.withOpenC 0x2D (a.d - a.s)) := rfl
@[simp] theorem exec_addsx (f : Dual) : exec (.addsx f) s = s.dualOp f (fun a => a.ext a.sumX (a.openC 0x2E)) := rfl
@[simp] theorem exec_subsx (f : Dual) : exec (.subsx f) s = s.dualOp f (fun a => a.ext a.diffX (a.openC 0x2F)) := rfl
@[simp] theorem exec_sumc (f : Dual) :
    exec (.sumc f) s = s.dualOp f (fun a => a.withOpenC 0x30 (if a.c then a.d - a.s else a.d + a.s)) := rfl
@[simp] theorem exec_sumnc (f : Dual) :
    exec (.sumnc f) s = s.dualOp f (fun a => a.withOpenC 0x31 (if a.c then a.d + a.s else a.d - a.s)) := rfl
@[simp] theorem exec_sumz (f : Dual) :
    exec (.sumz f) s = s.dualOp f (fun a => a.withOpenC 0x32 (if a.z then a.d - a.s else a.d + a.s)) := rfl
@[simp] theorem exec_sumnz (f : Dual) :
    exec (.sumnz f) s = s.dualOp f (fun a => a.withOpenC 0x33 (if a.z then a.d + a.s else a.d - a.s)) := rfl
@[simp] theorem exec_min (f : Dual) :
    exec (.min f) s = s.dualOp f (fun a => ⟨if a.d.ult a.s then a.s else a.d, a.freeZ, a.d.ult a.s⟩) := rfl
@[simp] theorem exec_max (f : Dual) :
    exec (.max f) s = s.dualOp f (fun a => ⟨if a.s.ult a.d then a.s else a.d, a.freeZ, a.openC 0x35⟩) := rfl
@[simp] theorem exec_mins (f : Dual) :
    exec (.mins f) s = s.dualOp f (fun a => ⟨if a.d.slt a.s then a.s else a.d, a.freeZ, a.d.slt a.s⟩) := rfl
@[simp] theorem exec_maxs (f : Dual) :
    exec (.maxs f) s = s.dualOp f (fun a => ⟨if a.s.slt a.d then a.s else a.d, a.freeZ, a.openC 0x37⟩) := rfl
@[simp] theorem exec_addabs (f : Dual) :
    exec (.addabs f) s = s.dualOp f (fun a => a.withOpenC 0x38 (a.d + absOf a.s)) := rfl
@[simp] theorem exec_subabs (f : Dual) :
    exec (.subabs f) s = s.dualOp f (fun a => a.withOpenC 0x39 (a.d - absOf a.s)) := rfl
@[simp] theorem exec_incmod (f : Dual) :
    exec (.incmod f) s = s.dualOp f (fun a => if a.d = a.s then .of 0 true else .of (a.d + 1) false) := rfl
@[simp] theorem exec_decmod (f : Dual) :
    exec (.decmod f) s = s.dualOp f (fun a => if a.d = 0 then .of a.s true else .of (a.d - 1) false) := rfl
@[simp] theorem exec_cmpsub (f : Dual) :
    exec (.cmpsub f) s =
      s.dualOp f fun a => if a.d.ult a.s then ⟨a.d, if zOf a.d then a.freeZ else false, false⟩ else .of (a.d - a.s)
        true := rfl
@[simp] theorem exec_subr (f : Dual) :
    exec (.subr f) s = s.dualOp f (fun a => .of (a.s - a.d) (borrowSub a.s a.d false)) := rfl
@[simp] theorem exec_mul (f : Dual) :
    exec (.mul f) s = s.dualOp f (fun a => .of (a.short.openR 0x3E) (a.openC 0x3E)) 1 := rfl
@[simp] theorem exec_scl (f : Dual) :
    exec (.scl f) s = s.dualOp f (fun a => .of (a.short.openR 0x3F) (a.openC 0x3F)) 1 := rfl
@[simp] theorem exec_decod2 (f : Dual) :
    exec (.decod2 f) s = s.dualOp f (fun a => a.withOpenC 0x40 (a.lowOnly 4 (1#32 <<< (bits a.s 0 2).toNat))) := rfl
@[simp] theorem exec_decod3 (f : Dual) :
    exec (.decod3 f) s = s.dualOp f (fun a => a.withOpenC 0x41 (a.lowOnly 8 (1#32 <<< (bits a.s 0 3).toNat))) := rfl
@[simp] theorem exec_decod4 (f : Dual) :
    exec (.decod4 f) s = s.dualOp f (fun a => a.withOpenC 0x42 (a.lowOnly 16 (1#32 <<< (bits a.s 0 4).toNat))) := rfl
@[simp] theorem exec_decod5 (f : Dual) : exec (.decod5 f) s = s.dualOp f (fun a => a.withOpenC 0x43 (a.bit)) := rfl
@[simp] theorem exec_encod (f : DualZ) : exec (.encod f) s = s.dualZOp f (fun a => .of (a.openR 0x110) false) := rfl
@[simp] theorem exec_blmask (f : DualZ) : exec (.blmask f) s = s.dualZOp f (fun a => .of (a.openR 0x111) false) := rfl
@[simp] theorem exec_onecnt (f : DualZ) :
    exec (.onecnt f) s = s.dualZOp f (fun a => .of (countWord (ones a.s)) false) 1 := rfl
@[simp] theorem exec_zercnt (f : DualZ) :
    exec (.zercnt f) s = s.dualZOp f (fun a => .of (countWord (32 - ones a.s)) false) 1 := rfl
@[simp] theorem exec_incpat (f : DualC) :
    exec (.incpat f) s = s.dualCOp f (fun a => .of (a.openR 0x118) (a.openC 0x118)) := rfl
@[simp] theorem exec_decpat (f : DualC) :
    exec (.decpat f) s = s.dualCOp f (fun a => .of (a.openR 0x11A) (a.openC 0x11A)) := rfl
@[simp] theorem exec_splitb (f : DualP) : exec (.splitb f) s = s.dualPOp f (fun a => a.openR 0x11C) := rfl
@[simp] theorem exec_mergeb (f : DualP) : exec (.mergeb f) s = s.dualPOp f (fun a => a.openR 0x11D) := rfl
@[simp] theorem exec_splitw (f : DualP) : exec (.splitw f) s = s.dualPOp f (fun a => a.openR 0x11E) := rfl
@[simp] theorem exec_mergew (f : DualP) : exec (.mergew f) s = s.dualPOp f (fun a => a.openR 0x11F) := rfl
@[simp] theorem exec_getnib (n : BitVec 3) (f : DualP) :
    exec (.getnib n f) s = s.dualPOp f fun a => a.lowOnly 4 (getField a.s (4 * n.toNat) 4) := rfl
@[simp] theorem exec_setnib (n : BitVec 3) (f : DualP) :
    exec (.setnib n f) s = s.dualPOp f fun a => setField a.d (4 * n.toNat) 4 a.s := rfl
@[simp] theorem exec_getword (n : BitVec 1) (f : DualP) :
    exec (.getword n f) s = s.dualPOp f fun a => a.lowOnly 16 (getField a.s (16 * n.toNat) 16) := rfl
@[simp] theorem exec_setword (n : BitVec 1) (f : DualP) :
    exec (.setword n f) s = s.dualPOp f fun a => setField a.d (16 * n.toNat) 16 a.s := rfl
@[simp] theorem exec_setwrds (f : DualP) :
    exec (.setwrds f) s = s.dualPOp f (fun a => bits a.s 0 16 ++ bits a.s 0 16) := rfl
@[simp] theorem exec_rolnib (f : DualP) :
    exec (.rolnib f) s = s.dualPOp f (fun a => bits a.d 0 28 ++ bits a.s 0 4) := rfl
@[simp] theorem exec_rolbyte (f : DualP) :
    exec (.rolbyte f) s = s.dualPOp f (fun a => bits a.d 0 24 ++ bits a.s 0 8) := rfl
@[simp] theorem exec_rolword (f : DualP) :
    exec (.rolword f) s = s.dualPOp f (fun a => bits a.d 0 16 ++ bits a.s 0 16) := rfl
@[simp] theorem exec_sets (f : DualP) : exec (.sets f) s = s.dualPOp f (fun a => setField a.d 0 9 a.s) := rfl
@[simp] theorem exec_setd (f : DualP) : exec (.setd f) s = s.dualPOp f (fun a => setField a.d 9 9 a.s) := rfl
@[simp] theorem exec_setx (f : DualP) : exec (.setx f) s = s.dualPOp f (fun a => a.openR 0x13A) := rfl
@[simp] theorem exec_seti (f : DualP) : exec (.seti f) s = s.dualPOp f (fun a => setField a.d 23 9 a.s) := rfl
@[simp] theorem exec_cognew (f : DualC) : exec (.cognew f) s = execCognew f s := rfl
@[simp] theorem exec_waitcnt (f : DualP) : exec (.waitcnt f) s = execWaitcnt f s := rfl
@[simp] theorem exec_waitcntWc (f : DualP) : exec (.waitcntWc f) s = execWaitcntWc f s := rfl
@[simp] theorem exec_getbyte (n : BitVec 2) (f : DualP) :
    exec (.getbyte n f) s = s.dualPOp f fun a => a.lowOnly 8 (getField a.s (8 * n.toNat) 8) := rfl
@[simp] theorem exec_setbyte (n : BitVec 2) (f : DualP) :
    exec (.setbyte n f) s = s.dualPOp f fun a => setField a.d (8 * n.toNat) 8 a.s := rfl
@[simp] theorem exec_setbyts (f : DualP) :
    exec (.setbyts f) s = s.dualPOp f (fun a => bits a.s 0 8 ++ (bits a.s 0 8 ++ (bits a.s 0 8 ++ bits a.s 0 8))) := rfl
@[simp] theorem exec_movbyts (f : DualP) :
    exec (.movbyts f) s =
      s.dualPOp f (fun a => movedByte a.d a.s 3 ++ (movedByte a.d a.s 2 ++ (movedByte a.d a.s 1 ++ movedByte a.d a.s
        0))) := rfl
@[simp] theorem exec_packrgb (f : DualP) :
    exec (.packrgb f) s = s.dualPOp f (fun a => 0#1 ++ (packColours a.s ++ bits a.d 16 16)) := rfl
@[simp] theorem exec_unpkrgb (f : DualP) : exec (.unpkrgb f) s = s.dualPOp f (fun a => a.unpackColours) := rfl
@[simp] theorem exec_addpix (f : DualP) : exec (.addpix f) s = s.mixOp f fun _ => addTerms := rfl
@[simp] theorem exec_mulpix (f : DualP) : exec (.mulpix f) s = s.mixOp f fun _ => mulTerms := rfl
@[simp] theorem exec_blnpix (f : DualP) : exec (.blnpix f) s = s.mixOp f fun _ => blendTerms := rfl
@[simp] theorem exec_mixpix (f : DualP) : exec (.mixpix f) s = s.mixOp f Mix.terms := rfl
@[simp] theorem exec_jmpsw (f : Dual) : exec (.jmpsw f) s = s.jumpSwap f false := rfl
@[simp] theorem exec_jmpswd (f : Dual) : exec (.jmpswd f) s = s.jumpSwap f true := rfl
@[simp] theorem exec_ijz (f : DualP) : exec (.ijz f) s = s.countJump f (· + 1) Word.isZero false := rfl
@[simp] theorem exec_ijzd (f : DualP) : exec (.ijzd f) s = s.countJump f (· + 1) Word.isZero true := rfl
@[simp] theorem exec_ijnz (f : DualP) : exec (.ijnz f) s = s.countJump f (· + 1) Word.isNonzero false := rfl
@[simp] theorem exec_ijnzd (f : DualP) : exec (.ijnzd f) s = s.countJump f (· + 1) Word.isNonzero true := rfl
@[simp] theorem exec_djz (f : DualP) : exec (.djz f) s = s.countJump f (· - 1) Word.isZero false := rfl
@[simp] theorem exec_djzd (f : DualP) : exec (.djzd f) s = s.countJump f (· - 1) Word.isZero true := rfl
@[simp] theorem exec_djnz (f : DualP) : exec (.djnz f) s = s.countJump f (· - 1) Word.isNonzero false := rfl
@[simp] theorem exec_djnzd (f : DualP) : exec (.djnzd f) s = s.countJump f (· - 1) Word.isNonzero true := rfl
@[simp] theorem exec_testb (f : Dual) :
    exec (.testb f) s = s.dualTest f (fun a => a.withOpenC 0x58 (a.d &&& a.bit)) := rfl
@[simp] theorem exec_testn (f : Dual) : exec (.testn f) s = s.dualTest f (fun a => .par (a.d &&& ~~~a.s)) := rfl
@[simp] theorem exec_test (f : Dual) : exec (.test f) s = s.dualTest f (fun a => .par (a.d &&& a.s)) := rfl
@[simp] theorem exec_cmp (f : Dual) :
    exec (.cmp f) s = s.dualTest f (fun a => .of (a.d - a.s) (borrowSub a.d a.s false)) := rfl
@[simp] theorem exec_cmpx (f : Dual) :
    exec (.cmpx f) s = s.dualTest f (fun a => a.ext a.diffX (borrowSub a.d a.s a.c)) := rfl
@[simp] theorem exec_cmps (f : Dual) : exec (.cmps f) s = s.dualTest f (fun a => .of (a.d - a.s) (a.d.slt a.s)) := rfl
@[simp] theorem exec_cmpsx (f : Dual) : exec (.cmpsx f) s = s.dualTest f (fun a => a.ext a.diffX (a.openC 0x5E)) := rfl
@[simp] theorem exec_cmpr (f : Dual) :
    exec (.cmpr f) s = s.dualTest f (fun a => .of (a.s - a.d) (borrowSub a.s a.d false)) := rfl
@[simp] theorem exec_coginit (n : BitVec 3) (f : DualP) : exec (.coginit n f) s = execCoginit n f s := rfl
@[simp] theorem exec_waitvidImm (n : BitVec 12) (f : DualS) : exec (.waitvidImm n f) s = execWaitvidImm n f s := rfl
@[simp] theorem exec_waitvid (f : DualP) : exec (.waitvid f) s = execWaitvid f s := rfl
@[simp] theorem exec_waitpeq (n : BitVec 2) (f : DualC) :
    exec (.waitpeq n f) s = s.waitPort n f fun p d => p == d := rfl
@[simp] theorem exec_waitpne (n : BitVec 2) (f : DualC) :
    exec (.waitpne n f) s = s.waitPort n f fun p d => p != d := rfl
@[simp] theorem exec_wrbyte (f : DualL) :
    exec (.wrbyte f) s = s.hubWrite f 1 fun h a v => h.writeByte a (bits v 0 8) := rfl
@[simp] theorem exec_wrword (f : DualL) :
    exec (.wrword f) s = s.hubWrite f 2 fun h a v => h.writeWord a (bits v 0 16) := rfl
@[simp] theorem exec_wrlong (f : DualL) : exec (.wrlong f) s = s.hubWrite f 4 fun h a v => h.writeLong a v := rfl
@[simp] theorem exec_frac (f : DualL) :
    exec (.frac f) s =
      s.startL f MathUnit.divLeft fun o s1 => s1.cog.math.divided (fraction s1.turn o.dv o.sv, Config.freeWord s1.turn
        4) (Config.freeWord s1.turn 3) := rfl
@[simp] theorem exec_wraux (f : DualL) : exec (.wraux f) s = s.auxStore f id := rfl
@[simp] theorem exec_wrauxr (f : DualL) : exec (.wrauxr f) s = s.auxStore f fun a => ~~~a := rfl
@[simp] theorem exec_setacca (f : DualL) : exec (.setacca f) s = s.accL f fun d v m => { m with acca := v ++ d } := rfl
@[simp] theorem exec_setaccb (f : DualL) : exec (.setaccb f) s = s.accL f fun d v m => { m with accb := v ++ d } := rfl
@[simp] theorem exec_maca (f : DualL) :
    exec (.maca f) s = s.accL f fun d v m => { m with acca := m.acca + macProduct d v, macLeft := 3 } := rfl
@[simp] theorem exec_macb (f : DualL) :
    exec (.macb f) s = s.accL f fun d v m => { m with accb := m.accb + macProduct d v, macLeft := 3 } := rfl
@[simp] theorem exec_mul32 (f : DualL) :
    exec (.mul32 f) s =
      s.startL f MathUnit.mulLeft
        fun o s1 => { s1.cog.math with mulResult := o.dv.signExtend 64 * o.sv.signExtend 64, mulLeft := 18 } := rfl
@[simp] theorem exec_mul32u (f : DualL) :
    exec (.mul32u f) s =
      s.startL f MathUnit.mulLeft
        fun o s1 => { s1.cog.math with mulResult := o.dv.setWidth 64 * o.sv.setWidth 64, mulLeft := 18 } := rfl
@[simp] theorem exec_div32 (f : DualL) :
    exec (.div32 f) s =
      s.startL f MathUnit.divLeft fun o s1 => s1.cog.math.divided (signedDivide s1.turn 0 (o.dv.signExtend 64) o.sv)
        (Config.freeWord s1.turn 3) := rfl
@[simp] theorem exec_div32u (f : DualL) :
    exec (.div32u f) s =
      s.startL f MathUnit.divLeft fun o s1 => s1.cog.math.divided (unsignedDivide s1.turn 1 (o.dv.setWidth 64) o.sv)
        (Config.freeWord s1.turn 3) := rfl
@[simp] theorem exec_div64 (f : DualL) : exec (.div64 f) s = execDiv64 f s := rfl
@[simp] theorem exec_div64u (f : DualL) : exec (.div64u f) s = execDiv64u f s := rfl
@[simp] theorem exec_sqrt64 (f : DualL) :
    exec (.sqrt64 f) s =
      s.startL f MathUnit.sqrtLeft
        fun o s1 => { s1.cog.math with sqrtResult := squareRoot s1.turn (o.sv ++ o.dv) 32, sqrtLeft := 33 } := rfl
@[simp] theorem exec_qsincos (f : DualL) : exec (.qsincos f) s = execQsincos f s := rfl
@[simp] theorem exec_qarctan (f : DualL) : exec (.qarctan f) s = execQarctan f s := rfl
@[simp] theorem exec_qrotate (f : DualL) : exec (.qrotate f) s = execQrotate f s := rfl
@[simp] theorem exec_setsera (f : DualL) : exec (.setsera f) s = s.setSer f Cog.sera putSera := rfl
@[simp] theorem exec_setserb (f : DualL) : exec (.setserb f) s = s.setSer f Cog.serb putSerb := rfl
@[simp] theorem exec_setctrs (f : DualL) : exec (.setctrs f) s = s.setCtrs f fun u v _ => { u with cfg := v } := rfl
@[simp] theorem exec_setwavs (f : DualL) : exec (.setwavs f) s = s.setCtrs f fun u v _ => { u with wav := v } := rfl
@[simp] theorem exec_setfrqs (f : DualL) : exec (.setfrqs f) s = s.setCtrs f fun u v _ => { u with frq := v } := rfl
@[simp] theorem exec_setphss (f : DualL) : exec (.setphss f) s = s.setCtrs f Ctr.setPhs := rfl
@[simp] theorem exec_addphss (f : DualL) :
    exec (.addphss f) s = s.setCtrs f fun u v _ => { u with phs := u.phs + v } := rfl
@[simp] theorem exec_subphss (f : DualL) :
    exec (.subphss f) s = s.setCtrs f fun u v _ => { u with phs := u.phs - v } := rfl
@[simp] theorem exec_jp (f : DualL) : exec (.jp f) s = s.pinJump f true false := rfl
@[simp] theorem exec_jpd (f : DualL) : exec (.jpd f) s = s.pinJump f true true := rfl
@[simp] theorem exec_jnp (f : DualL) : exec (.jnp f) s = s.pinJump f false false := rfl
@[simp] theorem exec_jnpd (f : DualL) : exec (.jnpd f) s = s.pinJump f false true := rfl
@[simp] theorem exec_cfgpins (n : BitVec 2) (f : DualL) : exec (.cfgpins n f) s = execCfgpins n f s := rfl
@[simp] theorem exec_jmptask (f : DualL) : exec (.jmptask f) s = execJmptask f s := rfl
@[simp] theorem exec_setxfr (f : DualL) : exec (.setxfr f) s = execSetxfr f s := rfl
@[simp] theorem exec_setmix (f : DualL) :
    exec (.setmix f) s =
      s.configLS f
        fun d v c => { c with mix :=
          { m := bits d 0 9, dab := bits v 24 8, dcb := bits v 16 8, sab := bits v 8 8, scb := bits v 0 8,
            sel := false } } := rfl
@[simp] theorem exec_jz (f : DualP) : exec (.jz f) s = s.testJump f Word.isZero false := rfl
@[simp] theorem exec_jzd (f : DualP) : exec (.jzd f) s = s.testJump f Word.isZero true := rfl
@[simp] theorem exec_jnz (f : DualP) : exec (.jnz f) s = s.testJump f Word.isNonzero false := rfl
@[simp] theorem exec_jnzd (f : DualP) : exec (.jnzd f) s = s.testJump f Word.isNonzero true := rfl
@[simp] theorem exec_locbase (f : DualP) : exec (.locbase f) s = execLocbase f s := rfl
@[simp] theorem exec_locbyte (f : DualP) : exec (.locbyte f) s = s.locate f 0 := rfl
@[simp] theorem exec_locword (f : DualP) : exec (.locword f) s = s.locate f 1 := rfl
@[simp] theorem exec_loclong (f : DualP) : exec (.loclong f) s = s.locate f 2 := rfl
@[simp] theorem exec_jmplist (f : DualP) : exec (.jmplist f) s = execJmplist f s := rfl
@[simp] theorem exec_locinst (f : Loc) : exec (.locinst f) s = execLocinst f s := rfl
@[simp] theorem exec_reps (n : BitVec 16) (i : BitVec 6) : exec (.reps n i) s = execReps n i s := rfl
@[simp] theorem exec_augs (n : BitVec 23) :
    exec (.augs n) s = s.finish (s.cog.setTask { s.task with augs := some n }) := rfl
@[simp] theorem exec_augd (n : BitVec 23) :
    exec (.augd n) s = s.finish (s.cog.setTask { s.task with augd := some n }) := rfl
@[simp] theorem exec_fixinda (f : Ind) : exec (.fixinda f) s = s.setInds (fun _ => IndReg.fix f.s f.d) id := rfl
@[simp] theorem exec_fixindb (f : Ind) : exec (.fixindb f) s = s.setInds id fun _ => IndReg.fix f.s f.d := rfl
@[simp] theorem exec_fixinds (f : Ind) :
    exec (.fixinds f) s = s.setInds (fun _ => IndReg.fix f.s f.d) fun _ => IndReg.fix f.s f.d := rfl
@[simp] theorem exec_setindaAbs (f : Ind) : exec (.setindaAbs f) s = s.setInds (fun _ => IndReg.setAbs f.s) id := rfl
@[simp] theorem exec_setindaRel (f : Ind) : exec (.setindaRel f) s = s.setInds (fun r => r.setRel f.s) id := rfl
@[simp] theorem exec_setindbAbs (f : Ind) : exec (.setindbAbs f) s = s.setInds id fun _ => IndReg.setAbs f.d := rfl
@[simp] theorem exec_setindbRel (f : Ind) : exec (.setindbRel f) s = s.setInds id fun r => r.setRel f.d := rfl
@[simp] theorem exec_setindsAbsAbs (f : Ind) :
    exec (.setindsAbsAbs f) s = s.setInds (fun _ => IndReg.setAbs f.s) fun _ => IndReg.setAbs f.d := rfl
@[simp] theorem exec_setindsAbsRel (f : Ind) :
    exec (.setindsAbsRel f) s = s.setInds (fun r => r.setRel f.s) fun _ => IndReg.setAbs f.d := rfl
@[simp] theorem exec_setindsRelAbs (f : Ind) :
    exec (.setindsRelAbs f) s = s.setInds (fun _ => IndReg.setAbs f.s) fun r => r.setRel f.d := rfl
@[simp] theorem exec_setindsRelRel (f : Ind) :
    exec (.setindsRelRel f) s = s.setInds (fun r => r.setRel f.s) fun r => r.setRel f.d := rfl
@[simp] theorem exec_locptraAbs (f : Big) :
    exec (.locptraAbs f) s = s.locPtr f false fun a c => { c with ptra := a } := rfl
@[simp] theorem exec_locptraRel (f : Big) :
    exec (.locptraRel f) s = s.locPtr f true fun a c => { c with ptra := a } := rfl
@[simp] theorem exec_locptrbAbs (f : Big) :
    exec (.locptrbAbs f) s = s.locPtr f false fun a c => { c with ptrb := a } := rfl
@[simp] theorem exec_locptrbRel (f : Big) :
    exec (.locptrbRel f) s = s.locPtr f true fun a c => { c with ptrb := a } := rfl
@[simp] theorem exec_jmpAbs (f : Big) : exec (.jmpAbs f) s = s.jumpBig f false false := rfl
@[simp] theorem exec_jmpRel (f : Big) : exec (.jmpRel f) s = s.jumpBig f true false := rfl
@[simp] theorem exec_jmpdAbs (f : Big) : exec (.jmpdAbs f) s = s.jumpBig f false true := rfl
@[simp] theorem exec_jmpdRel (f : Big) : exec (.jmpdRel f) s = s.jumpBig f true true := rfl
@[simp] theorem exec_callAbs (f : Big) : exec (.callAbs f) s = s.callBig f .task false false := rfl
@[simp] theorem exec_callRel (f : Big) : exec (.callRel f) s = s.callBig f .task true false := rfl
@[simp] theorem exec_calldAbs (f : Big) : exec (.calldAbs f) s = s.callBig f .task false true := rfl
@[simp] theorem exec_calldRel (f : Big) : exec (.calldRel f) s = s.callBig f .task true true := rfl
@[simp] theorem exec_callaAbs (f : Big) : exec (.callaAbs f) s = s.callBig f .hubA false false := rfl
@[simp] theorem exec_callaRel (f : Big) : exec (.callaRel f) s = s.callBig f .hubA true false := rfl
@[simp] theorem exec_calladAbs (f : Big) : exec (.calladAbs f) s = s.callBig f .hubA false true := rfl
@[simp] theorem exec_calladRel (f : Big) : exec (.calladRel f) s = s.callBig f .hubA true true := rfl
@[simp] theorem exec_callbAbs (f : Big) : exec (.callbAbs f) s = s.callBig f .hubB false false := rfl
@[simp] theorem exec_callbRel (f : Big) : exec (.callbRel f) s = s.callBig f .hubB true false := rfl
@[simp] theorem exec_callbdAbs (f : Big) : exec (.callbdAbs f) s = s.callBig f .hubB false true := rfl
@[simp] theorem exec_callbdRel (f : Big) : exec (.callbdRel f) s = s.callBig f .hubB true true := rfl
@[simp] theorem exec_callxAbs (f : Big) : exec (.callxAbs f) s = s.callBig f .auxX false false := rfl
@[simp] theorem exec_callxRel (f : Big) : exec (.callxRel f) s = s.callBig f .auxX true false := rfl
@[simp] theorem exec_callxdAbs (f : Big) : exec (.callxdAbs f) s = s.callBig f .auxX false true := rfl
@[simp] theorem exec_callxdRel (f : Big) : exec (.callxdRel f) s = s.callBig f .auxX true true := rfl
@[simp] theorem exec_callyAbs (f : Big) : exec (.callyAbs f) s = s.callBig f .auxY false false := rfl
@[simp] theorem exec_callyRel (f : Big) : exec (.callyRel f) s = s.callBig f .auxY true false := rfl
@[simp] theorem exec_callydAbs (f : Big) : exec (.callydAbs f) s = s.callBig f .auxY false true := rfl
@[simp] theorem exec_callydRel (f : Big) : exec (.callydRel f) s = s.callBig f .auxY true true := rfl
@[simp] theorem exec_cogid (f : SingleZC) : exec (.cogid f) s = execCogid f s := rfl
@[simp] theorem exec_taskid (f : SingleZC) : exec (.taskid f) s = s.readInto f (fun s1 => taskWord s1.cog.cur) id := rfl
@[simp] theorem exec_locknew (f : SingleZC) : exec (.locknew f) s = execLocknew f s := rfl
@[simp] theorem exec_getlfsr (f : SingleZC) :
    exec (.getlfsr f) s = s.singleOp f (fun a => .of a.freeR (a.openC 0x403)) := rfl
@[simp] theorem exec_getcnt (f : SingleZC) : exec (.getcnt f) s = s.readCount f State.cntLow := rfl
@[simp] theorem exec_getcntx (f : SingleZC) : exec (.getcntx f) s = s.readCount f State.cntHigh := rfl
@[simp] theorem exec_getacal (f : SingleZC) : exec (.getacal f) s = s.readAcc f fun m => bits m.acca 0 32 := rfl
@[simp] theorem exec_getacah (f : SingleZC) : exec (.getacah f) s = s.readAcc f fun m => bits m.acca 32 32 := rfl
@[simp] theorem exec_getacbl (f : SingleZC) : exec (.getacbl f) s = s.readAcc f fun m => bits m.accb 0 32 := rfl
@[simp] theorem exec_getacbh (f : SingleZC) : exec (.getacbh f) s = s.readAcc f fun m => bits m.accb 32 32 := rfl
@[simp] theorem exec_getptra (f : SingleZC) :
    exec (.getptra f) s = s.readInto f (fun s1 => s1.cog.ptra.setWidth 32) id := rfl
@[simp] theorem exec_getptrb (f : SingleZC) :
    exec (.getptrb f) s = s.readInto f (fun s1 => s1.cog.ptrb.setWidth 32) id := rfl
@[simp] theorem exec_getptrx (f : SingleZC) : exec (.getptrx f) s = s.readAuxPtr f Cog.ptrx := rfl
@[simp] theorem exec_getptry (f : SingleZC) : exec (.getptry f) s = s.readAuxPtr f Cog.ptry := rfl
@[simp] theorem exec_serina (f : SingleZC) : exec (.serina f) s = s.serIn f Cog.sera putSera := rfl
@[simp] theorem exec_serinb (f : SingleZC) : exec (.serinb f) s = s.serIn f Cog.serb putSerb := rfl
@[simp] theorem exec_getmull (f : SingleZC) :
    exec (.getmull f) s = s.readResult f MathUnit.mulLeft fun m => bits m.mulResult 0 32 := rfl
@[simp] theorem exec_getmulh (f : SingleZC) :
    exec (.getmulh f) s = s.readResult f MathUnit.mulLeft fun m => bits m.mulResult 32 32 := rfl
@[simp] theorem exec_getdivq (f : SingleZC) :
    exec (.getdivq f) s = s.readResult f MathUnit.divLeft MathUnit.divQuotient := rfl
@[simp] theorem exec_getdivr (f : SingleZC) :
    exec (.getdivr f) s = s.readResult f MathUnit.divLeft MathUnit.divRemainder := rfl
@[simp] theorem exec_getsqrt (f : SingleZC) :
    exec (.getsqrt f) s = s.readResult f MathUnit.sqrtLeft MathUnit.sqrtResult := rfl
@[simp] theorem exec_getqx (f : SingleZC) : exec (.getqx f) s = s.readResult f MathUnit.qLeft MathUnit.qx := rfl
@[simp] theorem exec_getqy (f : SingleZC) : exec (.getqy f) s = s.readResult f MathUnit.qLeft MathUnit.qy := rfl
@[simp] theorem exec_getqz (f : SingleZC) : exec (.getqz f) s = s.readResult f MathUnit.qLeft MathUnit.qz := rfl
@[simp] theorem exec_getphsa (f : SingleZC) : exec (.getphsa f) s = s.readInto f (fun s1 => s1.cog.ctra.phs) id := rfl
@[simp] theorem exec_getphza (f : SingleZC) :
    exec (.getphza f) s =
      s.readInto f (fun s1 => s1.cog.ctra.phs) fun c => { c with ctra := { c.ctra with phs := 0 } } := rfl
@[simp] theorem exec_getcosa (f : SingleZC) : exec (.getcosa f) s = s.readInto f (fun s1 => s1.cog.ctra.cos) id := rfl
@[simp] theorem exec_getsina (f : SingleZC) : exec (.getsina f) s = s.readInto f (fun s1 => s1.cog.ctra.sin) id := rfl
@[simp] theorem exec_getphsb (f : SingleZC) : exec (.getphsb f) s = s.readInto f (fun s1 => s1.cog.ctrb.phs) id := rfl
@[simp] theorem exec_getphzb (f : SingleZC) :
    exec (.getphzb f) s =
      s.readInto f (fun s1 => s1.cog.ctrb.phs) fun c => { c with ctrb := { c.ctrb with phs := 0 } } := rfl
@[simp] theorem exec_getcosb (f : SingleZC) : exec (.getcosb f) s = s.readInto f (fun s1 => s1.cog.ctrb.cos) id := rfl
@[simp] theorem exec_getsinb (f : SingleZC) : exec (.getsinb f) s = s.readInto f (fun s1 => s1.cog.ctrb.sin) id := rfl
@[simp] theorem exec_subcnt (f : SingleZC) : exec (.subcnt f) s = execSubcnt f s := rfl
@[simp] theorem exec_getpix (f : SingleZC) : exec (.getpix f) s = execGetpix f s := rfl
@[simp] theorem exec_binbcd (f : SingleZC) :
    exec (.binbcd f) s = s.singleOp f (fun a => a.withOpenC 0x424 (a.openR 0x424)) := rfl
@[simp] theorem exec_bcdbin (f : SingleZC) :
    exec (.bcdbin f) s = s.singleOp f (fun a => a.withOpenC 0x425 (a.openR 0x425)) := rfl
@[simp] theorem exec_bingry (f : SingleZC) :
    exec (.bingry f) s = s.singleOp f (fun a => a.withOpenC 0x426 (a.d ^^^ (a.d >>> 1))) := rfl
@[simp] theorem exec_grybin (f : SingleZC) :
    exec (.grybin f) s = s.singleOp f (fun a => a.withOpenC 0x427 (grayToBinary a.d)) 1 := rfl
@[simp] theorem exec_eswap4 (f : SingleZC) :
    exec (.eswap4 f) s = s.singleOp f (fun a => a.withOpenC 0x428 (a.openR 0x428)) := rfl
@[simp] theorem exec_eswap8 (f : SingleZC) :
    exec (.eswap8 f) s = s.singleOp f (fun a => a.withOpenC 0x429 (a.openR 0x429)) := rfl
@[simp] theorem exec_seussf (f : SingleZC) :
    exec (.seussf f) s = s.singleOp f (fun a => a.withOpenC 0x42A (a.openR 0x42A)) := rfl
@[simp] theorem exec_seussr (f : SingleZC) :
    exec (.seussr f) s = s.singleOp f (fun a => a.withOpenC 0x42B (a.openR 0x42B)) := rfl
@[simp] theorem exec_incd (f : SingleZC) : exec (.incd f) s = s.singleOp f (fun a => .of (a.d + 0x200) a.freeC) := rfl
@[simp] theorem exec_decd (f : SingleZC) : exec (.decd f) s = s.singleOp f (fun a => .of (a.d - 0x200) a.freeC) := rfl
@[simp] theorem exec_incds (f : SingleZC) : exec (.incds f) s = s.singleOp f (fun a => .of (a.d + 0x201) a.freeC) := rfl
@[simp] theorem exec_decds (f : SingleZC) : exec (.decds f) s = s.singleOp f (fun a => .of (a.d - 0x201) a.freeC) := rfl
@[simp] theorem exec_pop (f : SingleZC) : exec (.pop f) s = execPop f s := rfl
@[simp] theorem exec_repd (i : BitVec 6) (f : SingleL) : exec (.repd i f) s = execRepd i f s := rfl
@[simp] theorem exec_repdInf (i : BitVec 6) (f : Zero0) : exec (.repdInf i f) s = execRepdInf i f s := rfl
@[simp] theorem exec_clkset (f : SingleL) : exec (.clkset f) s = execClkset f s := rfl
@[simp] theorem exec_cogstop (f : SingleL) : exec (.cogstop f) s = execCogstop f s := rfl
@[simp] theorem exec_lockset (f : SingleCL) : exec (.lockset f) s = s.lockOp f true := rfl
@[simp] theorem exec_lockclr (f : SingleCL) : exec (.lockclr f) s = s.lockOp f false := rfl
@[simp] theorem exec_lockret (f : SingleL) : exec (.lockret f) s = execLockret f s := rfl
@[simp] theorem exec_rdwidec (f : SingleL) :
    exec (.rdwidec f) s =
      s.wideOp f fun u o s1 => if s1.cog.wide.holds u.addr then s1.finish u.cog else s1.atHub o fun s2 => s2.finish
        (u.cog.reload s2.hub.mem u.addr) := rfl
@[simp] theorem exec_rdwide (f : SingleL) :
    exec (.rdwide f) s = s.wideOp f fun u o s1 => s1.atHub o fun s2 => s2.finish (u.cog.reload s2.hub.mem u.addr) := rfl
@[simp] theorem exec_wrwide (f : SingleL) :
    exec (.wrwide f) s =
      s.wideOp f fun u o s1 => s1.atHub o fun s2 => { s2 with hub := s2.hub.writeWide u.addr u.cog.wide.regs }.finish
        u.cog := rfl
@[simp] theorem exec_getp (f : SingleZCL) : exec (.getp f) s = s.readPin f not id := rfl
@[simp] theorem exec_getnp (f : SingleZCL) : exec (.getnp f) s = s.readPin f id not := rfl
@[simp] theorem exec_serouta (f : SingleCL) : exec (.serouta f) s = s.serOut f Cog.sera putSera := rfl
@[simp] theorem exec_seroutb (f : SingleCL) : exec (.seroutb f) s = s.serOut f Cog.serb putSerb := rfl
@[simp] theorem exec_cmpcnt (f : SingleCL) : exec (.cmpcnt f) s = execCmpcnt f s := rfl
@[simp] theorem exec_waitpx (f : SingleCL) : exec (.waitpx f) s = s.waitEdge f fun before now => before != now := rfl
@[simp] theorem exec_waitpr (f : SingleCL) : exec (.waitpr f) s = s.waitEdge f fun before now => !before && now := rfl
@[simp] theorem exec_waitpf (f : SingleCL) : exec (.waitpf f) s = s.waitEdge f fun before now => before && !now := rfl
@[simp] theorem exec_setmap (f : SingleL) :
    exec (.setmap f) s = s.configL f fun v c => { c with remap := { c.remap with map := bits v 0 7 } } := rfl
@[simp] theorem exec_setxch (f : SingleL) :
    exec (.setxch f) s = s.configL f fun v c => { c with ports := { c.ports with xch := v } } := rfl
@[simp] theorem exec_settask (f : SingleL) :
    exec (.settask f) s = s.configL f fun v c => { c with sched := { c.sched with task := v, q5 := some v } } := rfl
@[simp] theorem exec_setrace (f : SingleL) :
    exec (.setrace f) s = s.configL f fun v c => { c with trace := bits v 0 4 } := rfl
@[simp] theorem exec_saracca (f : SingleL) :
    exec (.saracca f) s = s.shiftAcc f fun n m => { m with acca := m.acca.sshiftRight n } := rfl
@[simp] theorem exec_saraccb (f : SingleL) :
    exec (.saraccb f) s = s.shiftAcc f fun n m => { m with accb := m.accb.sshiftRight n } := rfl
@[simp] theorem exec_saraccs (f : SingleL) :
    exec (.saraccs f) s =
      s.shiftAcc f fun n m => { m with acca := m.acca.sshiftRight n, accb := m.accb.sshiftRight n } := rfl
@[simp] theorem exec_setptra (f : SingleL) :
    exec (.setptra f) s = s.configL f fun v c => { c with ptra := bits v 0 18 } := rfl
@[simp] theorem exec_setptrb (f : SingleL) :
    exec (.setptrb f) s = s.configL f fun v c => { c with ptrb := bits v 0 18 } := rfl
@[simp] theorem exec_addptra (f : SingleL) :
    exec (.addptra f) s = s.configL f fun v c => { c with ptra := c.ptra + bits v 0 18 } := rfl
@[simp] theorem exec_addptrb (f : SingleL) :
    exec (.addptrb f) s = s.configL f fun v c => { c with ptrb := c.ptrb + bits v 0 18 } := rfl
@[simp] theorem exec_subptra (f : SingleL) :
    exec (.subptra f) s = s.configL f fun v c => { c with ptra := c.ptra - bits v 0 18 } := rfl
@[simp] theorem exec_subptrb (f : SingleL) :
    exec (.subptrb f) s = s.configL f fun v c => { c with ptrb := c.ptrb - bits v 0 18 } := rfl
@[simp] theorem exec_setwide (f : SingleL) : exec (.setwide f) s = s.moveWindow f id := rfl
@[simp] theorem exec_setwidz (f : SingleL) : exec (.setwidz f) s = s.moveWindow f Wide.cleared := rfl
@[simp] theorem exec_setptrx (f : SingleL) :
    exec (.setptrx f) s = s.configL f fun v c => { c with ptrx := bits v 0 8 } := rfl
@[simp] theorem exec_setptry (f : SingleL) : exec (.setptry f) s = s.writePtry f fun _ v => v := rfl
@[simp] theorem exec_addptrx (f : SingleL) :
    exec (.addptrx f) s = s.configL f fun v c => { c with ptrx := c.ptrx + bits v 0 8 } := rfl
@[simp] theorem exec_addptry (f : SingleL) : exec (.addptry f) s = s.writePtry f fun p v => p + v := rfl
@[simp] theorem exec_subptrx (f : SingleL) :
    exec (.subptrx f) s = s.configL f fun v c => { c with ptrx := c.ptrx - bits v 0 8 } := rfl
@[simp] theorem exec_subptry (f : SingleL) : exec (.subptry f) s = s.writePtry f fun p v => p - v := rfl
@[simp] theorem exec_passcnt (f : SingleL) : exec (.passcnt f) s = execPasscnt f s := rfl
@[simp] theorem exec_wait (f : SingleL) : exec (.wait f) s = execWait f s := rfl
@[simp] theorem exec_offp (f : SingleL) :
    exec (.offp f) s = s.configL f fun v c => c.putPin (bits v 0 7) (c.pinOut (bits v 0 7)) false := rfl
@[simp] theorem exec_notp (f : SingleL) : exec (.notp f) s = s.drivePin f fun o _ => !o := rfl
@[simp] theorem exec_clrp (f : SingleL) : exec (.clrp f) s = s.drivePin f fun _ _ => false := rfl
@[simp] theorem exec_setp (f : SingleL) : exec (.setp f) s = s.drivePin f fun _ _ => true := rfl
@[simp] theorem exec_setpc (f : SingleL) : exec (.setpc f) s = s.drivePin f fun _ k => k.c := rfl
@[simp] theorem exec_setpnc (f : SingleL) : exec (.setpnc f) s = s.drivePin f fun _ k => !k.c := rfl
@[simp] theorem exec_setpz (f : SingleL) : exec (.setpz f) s = s.drivePin f fun _ k => k.z := rfl
@[simp] theorem exec_setpnz (f : SingleL) : exec (.setpnz f) s = s.drivePin f fun _ k => !k.z := rfl
@[simp] theorem exec_div64d (f : SingleL) :
    exec (.div64d f) s = s.start1 f MathUnit.divLeft fun v s1 => { s1.cog.math with divDenominator := v } := rfl
@[simp] theorem exec_sqrt32 (f : SingleL) :
    exec (.sqrt32 f) s =
      s.start1 f MathUnit.sqrtLeft
        fun v s1 => { s1.cog.math with sqrtResult := squareRoot s1.turn (v.setWidth 64) 16, sqrtLeft := 17 } := rfl
@[simp] theorem exec_qlog (f : SingleL) : exec (.qlog f) s = execQlog f s := rfl
@[simp] theorem exec_qexp (f : SingleL) : exec (.qexp f) s = execQexp f s := rfl
@[simp] theorem exec_setqi (f : SingleL) :
    exec (.setqi f) s = s.start1 f MathUnit.qLeft fun v s1 => { s1.cog.math with qi := bits v 0 6 } := rfl
@[simp] theorem exec_setqz (f : SingleL) :
    exec (.setqz f) s = s.start1 f MathUnit.qLeft fun v s1 => { s1.cog.math with qz := v, qzPreset := true } := rfl
@[simp] theorem exec_cfgdacs (f : SingleL) :
    exec (.cfgdacs f) s =
      s.configL f fun v c =>
        { c with dac := { c.dac with cfg := ⟨bits v 0 2, bits v 2 2, bits v 4 2, bits v 6 2⟩ } }
        := rfl
@[simp] theorem exec_setdacs (f : SingleL) :
    exec (.setdacs f) s =
      s.configL f
        fun v c => { c with dac := { c.dac with
          val := if f.l then Quad.all (dacMid (bits v 0 9)) else ⟨dacByte v 0, dacByte v 1, dacByte v 2, dacByte v 3⟩
          cfg := Quad.all 0 } } := rfl
@[simp] theorem exec_cfgdac0 (f : SingleL) : exec (.cfgdac0 f) s = s.cfgDac f 0 := rfl
@[simp] theorem exec_cfgdac1 (f : SingleL) : exec (.cfgdac1 f) s = s.cfgDac f 1 := rfl
@[simp] theorem exec_cfgdac2 (f : SingleL) : exec (.cfgdac2 f) s = s.cfgDac f 2 := rfl
@[simp] theorem exec_cfgdac3 (f : SingleL) : exec (.cfgdac3 f) s = s.cfgDac f 3 := rfl
@[simp] theorem exec_setdac0 (f : SingleL) : exec (.setdac0 f) s = s.setDac f 0 := rfl
@[simp] theorem exec_setdac1 (f : SingleL) : exec (.setdac1 f) s = s.setDac f 1 := rfl
@[simp] theorem exec_setdac2 (f : SingleL) : exec (.setdac2 f) s = s.setDac f 2 := rfl
@[simp] theorem exec_setdac3 (f : SingleL) : exec (.setdac3 f) s = s.setDac f 3 := rfl
@[simp] theorem exec_setctra (f : SingleL) : exec (.setctra f) s = s.setCtra f fun u v _ => { u with cfg := v } := rfl
@[simp] theorem exec_setwava (f : SingleL) : exec (.setwava f) s = s.setCtra f fun u v _ => { u with wav := v } := rfl
@[simp] theorem exec_setfrqa (f : SingleL) : exec (.setfrqa f) s = s.setCtra f fun u v _ => { u with frq := v } := rfl
@[simp] theorem exec_setphsa (f : SingleL) : exec (.setphsa f) s = s.setCtra f Ctr.setPhs := rfl
@[simp] theorem exec_addphsa (f : SingleL) :
    exec (.addphsa f) s = s.setCtra f fun u v _ => { u with phs := u.phs + v } := rfl
@[simp] theorem exec_subphsa (f : SingleL) :
    exec (.subphsa f) s = s.setCtra f fun u v _ => { u with phs := u.phs - v } := rfl
@[simp] theorem exec_setvid (f : SingleL) :
    exec (.setvid f) s = s.configL f fun v c => { c with vid := { c.vid with cfg := bits v 0 7 } } := rfl
@[simp] theorem exec_setvidy (f : SingleL) :
    exec (.setvidy f) s = s.configL f fun v c => { c with vid := { c.vid with y := v } } := rfl
@[simp] theorem exec_setctrb (f : SingleL) : exec (.setctrb f) s = s.setCtrb f fun u v _ => { u with cfg := v } := rfl
@[simp] theorem exec_setwavb (f : SingleL) : exec (.setwavb f) s = s.setCtrb f fun u v _ => { u with wav := v } := rfl
@[simp] theorem exec_setfrqb (f : SingleL) : exec (.setfrqb f) s = s.setCtrb f fun u v _ => { u with frq := v } := rfl
@[simp] theorem exec_setphsb (f : SingleL) : exec (.setphsb f) s = s.setCtrb f Ctr.setPhs := rfl
@[simp] theorem exec_addphsb (f : SingleL) :
    exec (.addphsb f) s = s.setCtrb f fun u v _ => { u with phs := u.phs + v } := rfl
@[simp] theorem exec_subphsb (f : SingleL) :
    exec (.subphsb f) s = s.setCtrb f fun u v _ => { u with phs := u.phs - v } := rfl
@[simp] theorem exec_setvidi (f : SingleL) :
    exec (.setvidi f) s = s.configL f fun v c => { c with vid := { c.vid with i := v } } := rfl
@[simp] theorem exec_setvidq (f : SingleL) :
    exec (.setvidq f) s = s.configL f fun v c => { c with vid := { c.vid with q := v } } := rfl
@[simp] theorem exec_setpix (f : SingleL) :
    exec (.setpix f) s = s.configL f fun v c => { c with pix := { c.pix with cfg := v } } := rfl
@[simp] theorem exec_setpixz (f : SingleL) :
    exec (.setpixz f) s = s.configL f fun v c => { c with pix := { c.pix with z := pairOf v } } := rfl
@[simp] theorem exec_setpixu (f : SingleL) :
    exec (.setpixu f) s = s.configL f fun v c => { c with pix := { c.pix with u := pairOf v } } := rfl
@[simp] theorem exec_setpixv (f : SingleL) :
    exec (.setpixv f) s = s.configL f fun v c => { c with pix := { c.pix with v := pairOf v } } := rfl
@[simp] theorem exec_setpixa (f : SingleL) :
    exec (.setpixa f) s = s.configL f fun v c => { c with pix := { c.pix with a := pairOf v } } := rfl
@[simp] theorem exec_setpixr (f : SingleL) :
    exec (.setpixr f) s = s.configL f fun v c => { c with pix := { c.pix with r := pairOf v } } := rfl
@[simp] theorem exec_setpixg (f : SingleL) :
    exec (.setpixg f) s = s.configL f fun v c => { c with pix := { c.pix with g := pairOf v } } := rfl
@[simp] theorem exec_setpixb (f : SingleL) :
    exec (.setpixb f) s = s.configL f fun v c => { c with pix := { c.pix with b := pairOf v } } := rfl
@[simp] theorem exec_setpora (f : SingleL) : exec (.setpora f) s = s.setPor f 0 := rfl
@[simp] theorem exec_setporb (f : SingleL) : exec (.setporb f) s = s.setPor f 1 := rfl
@[simp] theorem exec_setporc (f : SingleL) : exec (.setporc f) s = s.setPor f 2 := rfl
@[simp] theorem exec_setpord (f : SingleL) : exec (.setpord f) s = s.setPor f 3 := rfl
@[simp] theorem exec_push (f : SingleL) : exec (.push f) s = execPush f s := rfl
@[simp] theorem exec_jmpReg (f : SingleZC) : exec (.jmpReg f) s = s.jumpReg f false := rfl
@[simp] theorem exec_jmpdReg (f : SingleZC) : exec (.jmpdReg f) s = s.jumpReg f true := rfl
@[simp] theorem exec_callReg (f : SingleZC) : exec (.callReg f) s = s.callReg f .task false := rfl
@[simp] theorem exec_calldReg (f : SingleZC) : exec (.calldReg f) s = s.callReg f .task true := rfl
@[simp] theorem exec_callaReg (f : SingleZC) : exec (.callaReg f) s = s.callReg f .hubA false := rfl
@[simp] theorem exec_calladReg (f : SingleZC) : exec (.calladReg f) s = s.callReg f .hubA true := rfl
@[simp] theorem exec_callbReg (f : SingleZC) : exec (.callbReg f) s = s.callReg f .hubB false := rfl
@[simp] theorem exec_callbdReg (f : SingleZC) : exec (.callbdReg f) s = s.callReg f .hubB true := rfl
@[simp] theorem exec_callxReg (f : SingleZC) : exec (.callxReg f) s = s.callReg f .auxX false := rfl
@[simp] theorem exec_callxdReg (f : SingleZC) : exec (.callxdReg f) s = s.callReg f .auxX true := rfl
@[simp] theorem exec_callyReg (f : SingleZC) : exec (.callyReg f) s = s.callReg f .auxY false := rfl
@[simp] theorem exec_callydReg (f : SingleZC) : exec (.callydReg f) s = s.callReg f .auxY true := rfl
@[simp] theorem exec_reta (f : Zero0ZC) : exec (.reta f) s = s.ret f .hubA false := rfl
@[simp] theorem exec_retad (f : Zero0ZC) : exec (.retad f) s = s.ret f .hubA true := rfl
@[simp] theorem exec_retb (f : Zero0ZC) : exec (.retb f) s = s.ret f .hubB false := rfl
@[simp] theorem exec_retbd (f : Zero0ZC) : exec (.retbd f) s = s.ret f .hubB true := rfl
@[simp] theorem exec_retx (f : Zero0ZC) : exec (.retx f) s = s.ret f .auxX false := rfl
@[simp] theorem exec_retxd (f : Zero0ZC) : exec (.retxd f) s = s.ret f .auxX true := rfl
@[simp] theorem exec_rety (f : Zero0ZC) : exec (.rety f) s = s.ret f .auxY false := rfl
@[simp] theorem exec_retyd (f : Zero0ZC) : exec (.retyd f) s = s.ret f .auxY true := rfl
@[simp] theorem exec_ret (f : Zero0ZC) : exec (.ret f) s = s.ret f .task false := rfl
@[simp] theorem exec_retd (f : Zero0ZC) : exec (.retd f) s = s.ret f .task true := rfl
@[simp] theorem exec_polctra (f : Zero0ZC) :
    exec (.polctra f) s =
      s.pollCtr f s.cog.ctra.rolled fun c => { c with ctra := { c.ctra with rolled := false } } := rfl
@[simp] theorem exec_polctrb (f : Zero0ZC) :
    exec (.polctrb f) s =
      s.pollCtr f s.cog.ctrb.rolled fun c => { c with ctrb := { c.ctrb with rolled := false } } := rfl
@[simp] theorem exec_polvid (f : Zero0ZC) : exec (.polvid f) s = execPolvid f s := rfl
@[simp] theorem exec_capctra (f : Zero0) :
    exec (.capctra f) s = s.config0 f fun c => { c with ctra := c.ctra.capture } := rfl
@[simp] theorem exec_capctrb (f : Zero0) :
    exec (.capctrb f) s = s.config0 f fun c => { c with ctrb := c.ctrb.capture } := rfl
@[simp] theorem exec_capctrs (f : Zero0) :
    exec (.capctrs f) s = s.config0 f fun c => { c with ctra := c.ctra.capture, ctrb := c.ctrb.capture } := rfl
@[simp] theorem exec_setpixw (f : Zero0) :
    exec (.setpixw f) s = s.config0 f fun c => { c with opq := { c.opq with pixw := true } } := rfl
@[simp] theorem exec_clracca (f : Zero0) :
    exec (.clracca f) s = s.config0 f fun c => c.withMath { c.math with acca := 0 } := rfl
@[simp] theorem exec_clraccb (f : Zero0) :
    exec (.clraccb f) s = s.config0 f fun c => c.withMath { c.math with accb := 0 } := rfl
@[simp] theorem exec_clraccs (f : Zero0) :
    exec (.clraccs f) s = s.config0 f fun c => c.withMath { c.math with acca := 0, accb := 0 } := rfl
@[simp] theorem exec_chkptrx (f : Zero0ZC) : exec (.chkptrx f) s = s.checkAuxPtr f Cog.ptrx := rfl
@[simp] theorem exec_chkptry (f : Zero0ZC) : exec (.chkptry f) s = s.checkAuxPtr f Cog.ptry := rfl
@[simp] theorem exec_synctra (f : Zero0) : exec (.synctra f) s = s.syncCtr f Cog.ctra := rfl
@[simp] theorem exec_synctrb (f : Zero0) : exec (.synctrb f) s = s.syncCtr f Cog.ctrb := rfl
@[simp] theorem exec_dcachex (f : Zero0) :
    exec (.dcachex f) s = s.config0 f fun c => { c with wide := { c.wide with valid := false } } := rfl
@[simp] theorem exec_icachex (f : Zero0) : exec (.icachex f) s = execIcachex f s := rfl
@[simp] theorem exec_icachep (f : Zero0) :
    exec (.icachep f) s = s.config0 f fun c => { c with icache := { c.icache with prefetch := true } } := rfl
@[simp] theorem exec_icachen (f : Zero0) :
    exec (.icachen f) s = s.config0 f fun c => { c with icache := { c.icache with prefetch := false } } := rfl
@[simp] theorem exec_nop : exec .nop s = s.hubRead ⟨false, false, false, 0, 0, 0⟩ 1 Memory.readByte := rfl
@[simp] theorem exec_mergen (f : DualP) : exec (.mergen f) s = s.dualPOp f (fun a => a.openR 0x11C) := rfl
@[simp] theorem exec_splitn (f : DualP) : exec (.splitn f) s = s.dualPOp f (fun a => a.openR 0x11D) := rfl
@[simp] theorem exec_switch : exec .switch s = s.jumpSwap ⟨true, true, false, 0x3, 0x1F3, 0x1F3⟩ false := rfl
@[simp] theorem exec_switchd : exec .switchd s = s.jumpSwap ⟨true, true, false, 0x3, 0x1F3, 0x1F3⟩ true := rfl
@[simp] theorem exec_pusha (f : SingleL) :
    exec (.pusha f) s = s.hubWrite ⟨f.l, true, f.cond, f.d, 0x0C1⟩ 4 fun h a v => h.writeLong a v := rfl
@[simp] theorem exec_pushb (f : SingleL) :
    exec (.pushb f) s = s.hubWrite ⟨f.l, true, f.cond, f.d, 0x1C1⟩ 4 fun h a v => h.writeLong a v := rfl
@[simp] theorem exec_popa (f : SingleZC) :
    exec (.popa f) s = s.hubRead ⟨f.wz, f.wc, true, f.cond, f.d, 0x0BF⟩ 4 Memory.readLong := rfl
@[simp] theorem exec_popb (f : SingleZC) :
    exec (.popb f) s = s.hubRead ⟨f.wz, f.wc, true, f.cond, f.d, 0x1BF⟩ 4 Memory.readLong := rfl
@[simp] theorem exec_pushx (f : SingleL) : exec (.pushx f) s = s.auxStore ⟨f.l, true, f.cond, f.d, 0x161⟩ id := rfl
@[simp] theorem exec_pushy (f : SingleL) :
    exec (.pushy f) s = s.auxStore ⟨f.l, true, f.cond, f.d, 0x1E1⟩ fun a => ~~~a := rfl
@[simp] theorem exec_popx (f : SingleZC) :
    exec (.popx f) s = s.auxLoad ⟨f.wz, f.wc, true, f.cond, f.d, 0x15F⟩ id := rfl
@[simp] theorem exec_popy (f : SingleZC) :
    exec (.popy f) s = s.auxLoad ⟨f.wz, f.wc, true, f.cond, f.d, 0x1DF⟩ fun a => ~~~a := rfl

end Sys2Proof.Machine
end

section
/-!
PROOFS. An instruction whose condition fails only passes on (30_encoding.md, section 2).
-/

set_option Elab.async false

namespace Sys2Proof.Machine

open Sys2Proof

variable {s : State} {cond : BitVec 4} {du : DUse} {su : SUse} {body : Operands → State → Out}

theorem passesOn (h : s.skips cond du su) : s.withOperands cond du su body = .next (s.passed cond du su) :=
  State.withOperands_skips h

theorem hubS_true (f : RegAddr) : hubS true f = .raw f := rfl
theorem auxS_true (f : RegAddr) : auxS true f = .raw f := rfl

/-- Decoding does nothing with a bare S field, whatever it holds. -/
theorem passesOn_raw {n : RegAddr} (h : s.skips cond du (.raw 0)) :
    s.withOperands cond du (.raw n) body = .next (s.passed cond du (.raw 0)) :=
  passesOn (su := .raw n) h

theorem condHolds_zero (z c : Bool) : condHolds 0 z c = false := by cases z <;> cases c <;> rfl

theorem condHolds_always (z c : Bool) : condHolds 15 z c = true := by cases z <;> cases c <;> rfl

/-- NOP's condition never holds (R198). -/
theorem nop_passesOn (h : s.enters) : exec .nop s = .next (s.passed 0 (.reg 0) (.reg 0)) := by
  have hs : s.skips 0 (.reg 0) (.reg 0) := ⟨h, by rw [condHolds_zero]; rfl⟩
  rw [exec_nop, State.hubRead]
  exact passesOn hs

/-- Without the always-condition GETPIX does not know its pixel (R906, U30). -/
theorem getpix_refused_of_skips {f : SingleZC} (h : s.skips f.cond (.reg f.d) (.raw 0)) :
    exec (.getpix f) s = .refused .pixUnprepared := by
  obtain ⟨hforced, hcond⟩ := Bool.or_eq_false_iff.mp h.2
  have hd : isWindow f.d = false := by simpa [forced, DUse.names, SUse.names, isWindow] using hforced
  have hc : f.cond ≠ 15 := fun h15 => by
    rw [h15, condHolds_always] at hcond
    cases hcond
  rw [exec_getpix, execGetpix]
  exact if_pos (Bool.and_eq_true_iff.mpr ⟨bne_iff_ne.mpr hc, by rw [hd]; rfl⟩)

/-- Settles O10: each instruction decodes its operands first, and skips what would come after. -/
theorem failedConditionOnlyPassesOn : Obligations.FailedConditionOnlyPassesOn := by
  refine ⟨fun _ h => nop_passesOn h, ?_, ?_, ?_, ?_, ?_, ?_, ?_, ?_, ?_, ?_, ?_, ?_, ?_, ?_, ?_, ?_, ?_, ?_, ?_, ?_, ?_,
    fun _ _ h => getpix_refused_of_skips h, ?_, ?_⟩
  · intro s _ h
    simp only [List.forall_mem_cons, passesOn h, true_and, exec_rdbyte, exec_rdbytec, exec_rdword, exec_rdwordc, exec_rdlong,
      exec_rdlongc, State.hubRead, State.hubReadC]
    exact List.forall_mem_nil _
  · intro s _ h
    simp only [List.forall_mem_cons, passesOn h, true_and, exec_rdaux, exec_rdauxr, State.auxLoad]
    exact List.forall_mem_nil _
  · intro s _ h
    simp only [List.forall_mem_cons, passesOn h, true_and, exec_isob, exec_notb, exec_clrb, exec_setb, exec_setbc,
      exec_setbnc, exec_setbz, exec_setbnz, exec_andn, exec_and, exec_or, exec_xor, exec_muxc, exec_muxnc, exec_muxz,
      exec_muxnz, exec_ror, exec_rol, exec_shr, exec_shl, exec_rcr, exec_rcl, exec_sar, exec_rev, exec_mov, exec_not,
      exec_abs, exec_neg, exec_negc, exec_negnc, exec_negz, exec_negnz, exec_add, exec_sub, exec_addx, exec_subx,
      exec_adds, exec_subs, exec_addsx, exec_subsx, exec_sumc, exec_sumnc, exec_sumz, exec_sumnz, exec_min, exec_max,
      exec_mins, exec_maxs, exec_addabs, exec_subabs, exec_incmod, exec_decmod, exec_cmpsub, exec_subr, exec_mul,
      exec_scl, exec_decod2, exec_decod3, exec_decod4, exec_decod5, exec_testb, exec_testn, exec_test, exec_cmp,
      exec_cmpx, exec_cmps, exec_cmpsx, exec_cmpr, State.dualOp, State.dualTest]
    exact List.forall_mem_nil _
  · intro s _ h
    simp only [List.forall_mem_cons, passesOn h, true_and, exec_encod, exec_blmask, exec_onecnt, exec_zercnt, State.dualZOp]
    exact List.forall_mem_nil _
  · intro s _ _ h
    simp only [List.forall_mem_cons, passesOn h, true_and, exec_incpat, exec_decpat, exec_cognew, exec_waitpeq, exec_waitpne,
      State.dualCOp, execCognew, State.waitPort]
    exact List.forall_mem_nil _
  · intro s _ _ _ _ h
    simp only [List.forall_mem_cons, passesOn h, true_and, exec_splitb, exec_mergeb, exec_splitw, exec_mergew, exec_getnib,
      exec_setnib, exec_getword, exec_setword, exec_setwrds, exec_rolnib, exec_rolbyte, exec_rolword, exec_sets,
      exec_setd, exec_setx, exec_seti, exec_waitcnt, exec_waitcntWc, exec_getbyte, exec_setbyte, exec_setbyts,
      exec_movbyts, exec_packrgb, exec_unpkrgb, exec_addpix, exec_mulpix, exec_blnpix, exec_mixpix, exec_coginit,
      exec_waitvid, exec_mergen, exec_splitn, State.dualPOp, execWaitcnt, execWaitcntWc, State.mixOp, execCoginit,
      execWaitvid]
    exact List.forall_mem_nil _
  · intro s _ h
    simp only [List.forall_mem_cons, passesOn h, true_and, exec_jmpsw, exec_jmpswd, State.jumpSwap]
    exact List.forall_mem_nil _
  · intro s _ h
    simp only [List.forall_mem_cons, passesOn h, true_and, exec_ijz, exec_ijzd, exec_ijnz, exec_ijnzd, exec_djz, exec_djzd,
      exec_djnz, exec_djnzd, exec_jz, exec_jzd, exec_jnz, exec_jnzd, exec_locbase, exec_locbyte, exec_locword,
      exec_loclong, exec_jmplist, State.countJump, State.testJump, execLocbase, State.locate, execJmplist]
    exact List.forall_mem_nil _
  · intro s _ _ h
    simp only [List.forall_mem_cons, passesOn h, true_and, exec_waitvidImm, execWaitvidImm]
    exact List.forall_mem_nil _
  · intro s _ h
    simp only [List.forall_mem_cons, passesOn h, true_and, exec_wrbyte, exec_wrword, exec_wrlong, State.hubWrite]
    exact List.forall_mem_nil _
  · intro s _ _ h
    simp only [List.forall_mem_cons, passesOn h, true_and, exec_frac, exec_setacca, exec_setaccb, exec_maca, exec_macb,
      exec_mul32, exec_mul32u, exec_div32, exec_div32u, exec_div64, exec_div64u, exec_sqrt64, exec_qsincos,
      exec_qarctan, exec_qrotate, exec_setsera, exec_setserb, exec_setctrs, exec_setwavs, exec_setfrqs, exec_setphss,
      exec_addphss, exec_subphss, exec_cfgpins, exec_jmptask, exec_setxfr, exec_setmix, State.startL, State.accL,
      execDiv64, execDiv64u, execQsincos, execQarctan, execQrotate, State.setSer, State.setCtrs, execCfgpins,
      execJmptask, execSetxfr, State.configLS]
    exact List.forall_mem_nil _
  · intro s _ h
    simp only [List.forall_mem_cons, passesOn h, true_and, exec_wraux, exec_wrauxr, State.auxStore]
    exact List.forall_mem_nil _
  · intro s _ h
    simp only [List.forall_mem_cons, passesOn h, true_and, exec_jp, exec_jpd, exec_jnp, exec_jnpd, State.pinJump]
    exact List.forall_mem_nil _
  · intro s _ h
    simp only [List.forall_mem_cons, passesOn h, true_and, exec_locinst, execLocinst]
    exact List.forall_mem_nil _
  · intro s _ h
    simp only [List.forall_mem_cons, passesOn h, true_and, exec_locptraAbs, exec_locptraRel, exec_locptrbAbs, exec_locptrbRel,
      exec_jmpAbs, exec_jmpRel, exec_jmpdAbs, exec_jmpdRel, exec_callAbs, exec_callRel, exec_calldAbs, exec_calldRel,
      exec_callaAbs, exec_callaRel, exec_calladAbs, exec_calladRel, exec_callbAbs, exec_callbRel, exec_callbdAbs,
      exec_callbdRel, exec_callxAbs, exec_callxRel, exec_callxdAbs, exec_callxdRel, exec_callyAbs, exec_callyRel,
      exec_callydAbs, exec_callydRel, State.locPtr, State.jumpBig, State.callBig, State.conditional]
    exact List.forall_mem_nil _
  · intro s _ h
    simp only [List.forall_mem_cons, passesOn h, true_and, passesOn_raw h, hubS_true, auxS_true, exec_cogid, exec_taskid,
      exec_locknew, exec_getlfsr, exec_getcnt, exec_getcntx, exec_getacal, exec_getacah, exec_getacbl, exec_getacbh,
      exec_getptra, exec_getptrb, exec_getptrx, exec_getptry, exec_serina, exec_serinb, exec_getmull, exec_getmulh,
      exec_getdivq, exec_getdivr, exec_getsqrt, exec_getqx, exec_getqy, exec_getqz, exec_getphsa, exec_getphza,
      exec_getcosa, exec_getsina, exec_getphsb, exec_getphzb, exec_getcosb, exec_getsinb, exec_pushzc, exec_popzc,
      exec_subcnt, exec_binbcd, exec_bcdbin, exec_bingry, exec_grybin, exec_eswap4, exec_eswap8, exec_seussf,
      exec_seussr, exec_incd, exec_decd, exec_incds, exec_decds, exec_pop, exec_jmpReg, exec_jmpdReg, exec_callReg,
      exec_calldReg, exec_callaReg, exec_calladReg, exec_callbReg, exec_callbdReg, exec_callxReg, exec_callxdReg,
      exec_callyReg, exec_callydReg, exec_popa, exec_popb, exec_popx, exec_popy, execCogid, State.readInto,
      execLocknew, State.singleOp, State.readCount, State.readAcc, State.readAuxPtr, State.serIn, State.readResult,
      execPushzc, execPopzc, execSubcnt, execPop, State.jumpReg, State.callReg, State.hubRead, State.auxLoad]
    exact List.forall_mem_nil _
  · intro s _ _ h
    simp only [List.forall_mem_cons, passesOn h, true_and, passesOn_raw h, hubS_true, auxS_true, exec_repd, exec_clkset,
      exec_cogstop, exec_lockret, exec_setmap, exec_setxch, exec_settask, exec_setrace, exec_saracca, exec_saraccb,
      exec_saraccs, exec_setptra, exec_setptrb, exec_addptra, exec_addptrb, exec_subptra, exec_subptrb, exec_setwide,
      exec_setwidz, exec_setptrx, exec_setptry, exec_addptrx, exec_addptry, exec_subptrx, exec_subptry, exec_passcnt,
      exec_wait, exec_offp, exec_notp, exec_clrp, exec_setp, exec_setpc, exec_setpnc, exec_setpz, exec_setpnz,
      exec_div64d, exec_sqrt32, exec_qlog, exec_qexp, exec_setqi, exec_setqz, exec_cfgdacs, exec_cfgdac0,
      exec_cfgdac1, exec_cfgdac2, exec_cfgdac3, exec_setctra, exec_setwava, exec_setfrqa, exec_setphsa, exec_addphsa,
      exec_subphsa, exec_setvid, exec_setvidy, exec_setctrb, exec_setwavb, exec_setfrqb, exec_setphsb, exec_addphsb,
      exec_subphsb, exec_setvidi, exec_setvidq, exec_setpix, exec_setpixz, exec_setpixu, exec_setpixv, exec_setpixa,
      exec_setpixr, exec_setpixg, exec_setpixb, exec_setpora, exec_setporb, exec_setporc, exec_setpord, exec_push,
      exec_pusha, exec_pushb, exec_pushx, exec_pushy, exec_setdacs, execRepd, execClkset, execCogstop, execLockret,
      State.configL, State.shiftAcc, State.moveWindow, State.writePtry, execPasscnt, execWait, State.drivePin,
      State.start1, execQlog, execQexp, State.cfgDac, State.setCtra, State.setCtrb, State.setPor, execPush,
      State.hubWrite, State.auxStore]
    exact List.forall_mem_nil _
  · intro s _ _ h
    simp only [List.forall_mem_cons, passesOn h, true_and, exec_repdInf, exec_capctra, exec_capctrb, exec_capctrs,
      exec_setpixw, exec_clracca, exec_clraccb, exec_clraccs, exec_synctra, exec_synctrb, exec_dcachex, exec_icachex,
      exec_icachep, exec_icachen, execRepdInf, State.conditional, State.config0, State.syncCtr, execIcachex]
    exact List.forall_mem_nil _
  · intro s _ h
    simp only [List.forall_mem_cons, passesOn h, true_and, exec_lockset, exec_lockclr, exec_serouta, exec_seroutb,
      exec_cmpcnt, exec_waitpx, exec_waitpr, exec_waitpf, State.lockOp, State.serOut, execCmpcnt, State.waitEdge]
    exact List.forall_mem_nil _
  · intro s _ h
    simp only [List.forall_mem_cons, passesOn h, true_and, exec_rdwidec, exec_rdwide, exec_wrwide, State.wideOp]
    exact List.forall_mem_nil _
  · intro s _ h
    simp only [List.forall_mem_cons, passesOn h, true_and, exec_getp, exec_getnp, exec_setzc, State.readPin, execSetzc]
    exact List.forall_mem_nil _
  · intro s _ h
    simp only [List.forall_mem_cons, passesOn h, true_and, dacD, exec_setdac0, exec_setdac1, exec_setdac2, exec_setdac3,
      State.setDac]
    exact List.forall_mem_nil _
  · intro s _ h
    simp only [List.forall_mem_cons, passesOn h, true_and, exec_reta, exec_retad, exec_retb, exec_retbd, exec_retx,
      exec_retxd, exec_rety, exec_retyd, exec_ret, exec_retd, exec_polctra, exec_polctrb, exec_polvid, exec_chkptrx,
      exec_chkptry, State.ret, State.pollCtr, execPolvid, State.conditional, State.checkAuxPtr]
    exact List.forall_mem_nil _

end Sys2Proof.Machine
end

section
/-!
PROOFS. Arithmetic, logic, bit and field instructions: results and flags (45_alu.md).
-/

set_option Elab.async false

namespace Sys2Proof.Machine

open Sys2Proof

/-! ### Words bit by bit -/

theorem zOf_eq_decide (r : Word) : zOf r = decide (r = 0) := rfl

theorem onesBelow_eq_countP (v : Word) (n : Nat) : onesBelow v n = (List.range n).countP (v.getLsbD ·) := by
  induction n with
  | zero => rfl
  | succ n ih =>
    rw [List.range_succ, List.countP_append, ← ih, onesBelow, Nat.add_comm]
    cases hv : v.getLsbD n <;> simp [hv]

theorem ones_eq_countP (v : Word) : ones v = (List.range 32).countP (v.getLsbD ·) := onesBelow_eq_countP v 32

theorem parity_eq_oddOnes (v : Word) : parity v = oddOnes v := by rw [parity, oddOnes, ones_eq_countP]

theorem AluIn.b_lt (a : AluIn) : a.b < 32 := (bits a.s 0 5).isLt

theorem AluIn.putBit_eq (a : AluIn) (level : Bool) :
    a.putBit level = if level then (a.d &&& ~~~a.bit) ||| a.bit else a.d &&& ~~~a.bit := by
  cases level <;> simp [AluIn.putBit]

theorem rotateRight_eq (v : Word) {n : Nat} (h : n < 32) : v.rotateRight n = (v >>> n) ||| (v <<< (32 - n)) := by
  rw [BitVec.rotateRight, Nat.mod_eq_of_lt h]; rfl

theorem rotateLeft_eq (v : Word) {n : Nat} (h : n < 32) : v.rotateLeft n = (v <<< n) ||| (v >>> (32 - n)) := by
  rw [BitVec.rotateLeft, Nat.mod_eq_of_lt h]; rfl

theorem AluIn.shiftC_of_le_one {a : AluIn} {e : Bool} (h : a.b ≤ 1) : a.shiftC e = e := if_pos h

theorem getLsbD_maskLow {n k : Nat} (h : k < 32) : (BitVec.ofNat 32 (2 ^ n - 1)).getLsbD k = decide (k < n) := by
  simp only [BitVec.getLsbD_ofNat, h, decide_true, Bool.true_and, Nat.testBit_two_pow_sub_one]

/-- A field set in a word, bit by bit. -/
theorem getLsbD_setField {v x : Word} {lo n k : Nat} (h : k < 32) :
    (setField v lo n x).getLsbD k = if lo ≤ k ∧ k < lo + n then x.getLsbD (k - lo) else v.getLsbD k := by
  have hk : k - lo < 32 := by omega
  simp only [setField, BitVec.getLsbD_or, BitVec.getLsbD_and, BitVec.getLsbD_not, BitVec.getLsbD_shiftLeft,
    getLsbD_maskLow hk, h, decide_true, Bool.true_and]
  by_cases hlo : k < lo
  · simp [hlo, show ¬lo ≤ k by omega]
  · by_cases hn : k < lo + n
    · simp [hlo, hn, show lo ≤ k by omega, show k - lo < n by omega]
    · simp [hlo, hn, show ¬k - lo < n by omega]

theorem getLsbD_getField {v : Word} {lo n k : Nat} (h : k < 32) (hn : k < n) :
    (getField v lo n).getLsbD k = v.getLsbD (lo + k) := by
  simp only [getField, BitVec.getLsbD_and, BitVec.getLsbD_ushiftRight, getLsbD_maskLow h, hn, decide_true, Bool.and_true]

theorem eq_of_getLsbD_lt {n : Nat} {x y : BitVec n} (h : ∀ k < n, x.getLsbD k = y.getLsbD k) : x = y :=
  BitVec.eq_of_getLsbD_eq fun k hk => h k hk

theorem getLsbD_bits {w : Nat} (v : BitVec w) {lo n k : Nat} (h : k < n) : (bits v lo n).getLsbD k = v.getLsbD (lo + k) := by
  simp only [BitVec.getLsbD_extractLsb', h, decide_true, Bool.true_and]

/-- The low bits of a result whose upper bits are open (U25). -/
theorem bits_lowOnly (a : AluIn) {n : Nat} (hn : n ≤ 32) (r : Word) : bits (a.lowOnly n r) 0 n = bits r 0 n := by
  refine eq_of_getLsbD_lt fun k hk => ?_
  rw [getLsbD_bits _ hk, getLsbD_bits _ hk, AluIn.lowOnly, getLsbD_setField (by omega), if_pos (by omega)]
  simp

theorem bits_getField (v : Word) (lo : Nat) {n : Nat} (hn : n ≤ 32) : bits (getField v lo n) 0 n = bits v lo n := by
  refine eq_of_getLsbD_lt fun k hk => ?_
  rw [getLsbD_bits _ hk, getLsbD_bits _ hk, Nat.zero_add, getLsbD_getField (by omega) hk]

theorem bits_one_shiftLeft {n k : Nat} (hn : n ≤ 32) : bits (1#32 <<< k) 0 n = 1#n <<< k := by
  refine eq_of_getLsbD_lt fun i hi => ?_
  have hi' : i < 32 := by omega
  rw [getLsbD_bits _ hi, Nat.zero_add]
  by_cases hk : i < k
  · simp only [BitVec.getLsbD_shiftLeft, hk, hi, hi', decide_true, Bool.not_true, Bool.and_false, Bool.false_and]
  · simp only [BitVec.getLsbD_shiftLeft, BitVec.getLsbD_one, hk, hi, hi', decide_true, decide_false, Bool.not_false,
      Bool.true_and, show 0 < n by omega, show 0 < 32 by omega]

/-! The rotates through C and the arithmetic shift fill from one side (R577 to R580). -/

theorem getLsbD_fillHigh {b k : Nat} (h : k < 32) : (~~~((-1#32) >>> b)).getLsbD k = !decide (k + b < 32) := by
  rw [BitVec.neg_one_eq_allOnes, BitVec.getLsbD_not, BitVec.getLsbD_ushiftRight, BitVec.getLsbD_allOnes, Nat.add_comm b k]
  simp only [h, decide_true, Bool.true_and]

theorem getLsbD_fillLow {b k : Nat} (h : k < 32) : (~~~((-1#32) <<< b)).getLsbD k = decide (k < b) := by
  rw [BitVec.neg_one_eq_allOnes, BitVec.getLsbD_not, BitVec.getLsbD_shiftLeft, BitVec.getLsbD_allOnes]
  simp only [h, decide_true, Bool.true_and, show k - b < 32 by omega, Bool.and_true, Bool.not_not]

theorem getLsbD_ite (c : Bool) (x : Word) (k : Nat) : (if c then x else 0).getLsbD k = (c && x.getLsbD k) := by
  cases c <;> simp

theorem getLsbD_rcr (d : Word) (c : Bool) {b k : Nat} (h : k < 32) :
    ((d >>> b) ||| (if c then ~~~((-1#32) >>> b) else 0)).getLsbD k = if k + b < 32 then d.getLsbD (k + b) else c := by
  rw [BitVec.getLsbD_or, BitVec.getLsbD_ushiftRight, getLsbD_ite, getLsbD_fillHigh h, Nat.add_comm b k]
  by_cases hb : k + b < 32
  · simp [hb]
  · simp [hb, BitVec.getLsbD_of_ge d (k + b) (by omega)]

theorem getLsbD_rcl (d : Word) (c : Bool) {b k : Nat} (h : k < 32) :
    ((d <<< b) ||| (if c then ~~~((-1#32) <<< b) else 0)).getLsbD k = if k < b then c else d.getLsbD (k - b) := by
  rw [BitVec.getLsbD_or, BitVec.getLsbD_shiftLeft, getLsbD_ite, getLsbD_fillLow h]
  by_cases hb : k < b <;> simp [hb, h]

theorem getLsbD_sar (d : Word) {b k : Nat} (h : k < 32) : (d.sshiftRight b).getLsbD k = d.getLsbD (min (k + b) 31) := by
  rw [BitVec.getLsbD_sshiftRight, BitVec.msb_eq_getLsbD_last]
  by_cases hb : b + k < 32
  · simp only [show ¬32 ≤ k by omega, hb, decide_false, Bool.not_false, Bool.true_and, if_true,
      show min (k + b) 31 = b + k by omega]
  · simp only [show ¬32 ≤ k by omega, hb, decide_false, Bool.not_false, Bool.true_and, if_false,
      show min (k + b) 31 = 32 - 1 by omega]

theorem getLsbD_rev (d : Word) (b k : Nat) :
    (d.reverse >>> b).getLsbD k = (decide (k + b < 32) && d.getLsbD (31 - (k + b))) := by
  rw [BitVec.getLsbD_ushiftRight, BitVec.getLsbD_reverse, BitVec.getMsbD, Nat.add_comm b k]

/-! The reflected Gray code: decoding undoes `x ^^^ (x >>> 1)` (R657). -/

/-- A word with itself shifted by `n` added modulo 2. -/
def foldRight (n : Nat) (x : Word) : Word := x ^^^ (x >>> n)

theorem foldRight_comm (m n : Nat) (x : Word) : foldRight m (foldRight n x) = foldRight n (foldRight m x) := by
  simp only [foldRight, BitVec.ushiftRight_xor_distrib, ← BitVec.shiftRight_add, Nat.add_comm m n, BitVec.xor_assoc]
  rw [← BitVec.xor_assoc (x >>> n), BitVec.xor_comm (x >>> n), BitVec.xor_assoc]

theorem foldRight_foldRight (n : Nat) (x : Word) : foldRight n (foldRight n x) = foldRight (n + n) x := by
  simp only [foldRight, BitVec.ushiftRight_xor_distrib, ← BitVec.shiftRight_add]
  rw [← BitVec.xor_assoc, BitVec.xor_assoc x, BitVec.xor_self, BitVec.xor_zero]

theorem grayToBinary_eq (d : Word) :
    grayToBinary d = foldRight 16 (foldRight 8 (foldRight 4 (foldRight 2 (foldRight 1 d)))) := rfl

theorem foldRight_grayToBinary (d : Word) : foldRight 1 (grayToBinary d) = d := by
  rw [grayToBinary_eq, foldRight_comm 1 16, foldRight_comm 1 8, foldRight_comm 1 4, foldRight_comm 1 2,
    foldRight_foldRight 1, foldRight_foldRight 2, foldRight_foldRight 4, foldRight_foldRight 8, foldRight_foldRight 16,
    foldRight, BitVec.ushiftRight_eq_zero (by decide), BitVec.xor_zero]

/-- Each bit of the value is the one above it with the code's bit added modulo 2. -/
theorem getLsbD_grayToBinary (d : Word) (k : Nat) :
    (grayToBinary d).getLsbD k = ((grayToBinary d).getLsbD (k + 1) ^^ d.getLsbD k) := by
  have h : (foldRight 1 (grayToBinary d)).getLsbD k = d.getLsbD k := by rw [foldRight_grayToBinary]
  rw [← h, foldRight, BitVec.getLsbD_xor, BitVec.getLsbD_ushiftRight, Nat.add_comm 1 k]
  cases (grayToBinary d).getLsbD k <;> cases (grayToBinary d).getLsbD (k + 1) <;> rfl

theorem getLsbD_grayToBinary_top (d : Word) : (grayToBinary d).getLsbD 31 = d.getLsbD 31 := by
  rw [getLsbD_grayToBinary, BitVec.getLsbD_of_ge _ (31 + 1) (by decide), Bool.false_xor]

/-! Words put together from parts. -/

theorem toNat_append_eq {n m : Nat} (x : BitVec n) (y : BitVec m) : (x ++ y).toNat = x.toNat * 2 ^ m + y.toNat := by
  rw [BitVec.toNat_append, ← Nat.shiftLeft_add_eq_or_of_lt y.isLt, Nat.shiftLeft_eq]

theorem setbyts_eq (x : BitVec 8) : x ++ (x ++ (x ++ x)) = x.setWidth 32 * 0x01010101#32 := by
  have hx := x.isLt
  have hl : (x ++ (x ++ (x ++ x))).toNat = x.toNat * 0x01010101 := by
    simp only [toNat_append_eq]
    omega
  have hr : (x.setWidth 32 * 0x01010101#32).toNat = x.toNat * 0x01010101 := by
    rw [BitVec.toNat_mul, BitVec.toNat_setWidth, BitVec.toNat_ofNat]
    omega
  exact BitVec.eq_of_toNat_eq (hl.trans hr.symm)

/-- A word shifted up with the low bits of another shifted in (R637 to R639). -/
theorem shifted_in (d s : Word) {n : Nat} (hn : n ≤ 32) :
    (bits d 0 (32 - n) ++ bits s 0 n).setWidth 32 = (d <<< n) ||| (bits s 0 n).setWidth 32 := by
  refine eq_of_getLsbD_lt fun k hk => ?_
  simp only [BitVec.getLsbD_setWidth, BitVec.getLsbD_append, BitVec.getLsbD_or, BitVec.getLsbD_shiftLeft, hk, decide_true,
    Bool.true_and]
  by_cases h : k < n
  · simp [h]
  · simp [h, show k - n < 32 - n by omega]

theorem bits_append_low {n m lo l : Nat} (x : BitVec n) (y : BitVec m) (h : lo + l ≤ m) :
    bits (x ++ y) lo l = bits y lo l := BitVec.extractLsb'_append_eq_of_add_le h

theorem bits_append_high {n m lo l : Nat} (x : BitVec n) (y : BitVec m) (h : m ≤ lo) :
    bits (x ++ y) lo l = bits x (lo - m) l := BitVec.extractLsb'_append_eq_of_le h

theorem bits_all {n : Nat} (x : BitVec n) : bits x 0 n = x := BitVec.extractLsb'_eq_self

/-- Byte `k` of four bytes put together (R642). -/
theorem bits_fourBytes (f : Nat → Byte) : ∀ k < 4, bits (f 3 ++ (f 2 ++ (f 1 ++ f 0))) (8 * k) 8 = f k
  | 0, _ => by rw [bits_append_low _ _ (by decide), bits_append_low _ _ (by decide), bits_append_low _ _ (by decide), bits_all]
  | 1, _ => by
    rw [bits_append_low _ _ (by decide), bits_append_low _ _ (by decide), bits_append_high _ _ (by decide), bits_all]
  | 2, _ => by rw [bits_append_low _ _ (by decide), bits_append_high _ _ (by decide), bits_all]
  | 3, _ => by rw [bits_append_high _ _ (by decide), bits_all]

/-! ### A result of an ALU function, against what the spec says of it -/

def DResult.fits (g : DResult) (a : Result) : Prop := g.r a.r ∧ g.z a.r a.z ∧ g.c a.c

section
variable {g : DResult} {s t : State} {o : Operands}

theorem DResult.holds.of_putResult {wz wc : Bool} {a : Result} (he : exec g.i s = t.putResult o wz wc a g.stall)
    (hr : g.fits a) : g.holds s t o.d wz wc := by
  obtain ⟨hr, hz, hc⟩ := hr
  exact ⟨a.r, a.z, a.c, hr, hz, hc, he ▸ State.putResult_delivers t o wz wc a g.stall⟩

theorem DResult.holds.dualOp {f : Dual} {alu : AluIn → Result} (h : s.stage4 f.cond (.reg f.d) (si f.i f.s) o t)
    (he : exec g.i s = s.dualOp f alu g.stall) (hr : g.fits (alu (t.aluIn o))) : g.holds s t o.d f.wz f.wc :=
  DResult.holds.of_putResult (he.trans (State.withOperands_stage4 h)) hr

theorem DResult.holds.dualZOp {f : DualZ} {alu : AluIn → Result} (h : s.stage4 f.cond (.reg f.d) (si f.i f.s) o t)
    (he : exec g.i s = s.dualZOp f alu g.stall) (hr : g.fits (alu (t.aluIn o))) : g.holds s t o.d f.wz false :=
  DResult.holds.of_putResult (he.trans (State.withOperands_stage4 h)) hr

theorem DResult.holds.dualCOp {f : DualC} {alu : AluIn → Result} (h : s.stage4 f.cond (.reg f.d) (si f.i f.s) o t)
    (he : exec g.i s = s.dualCOp f alu) (hs : g.stall = 0) (hr : g.fits (alu (t.aluIn o))) : g.holds s t o.d false f.wc :=
  DResult.holds.of_putResult (he.trans ((State.withOperands_stage4 h).trans (hs ▸ rfl))) hr

theorem DResult.holds.singleOp {f : SingleZC} {alu : AluIn → Result} (h : s.stage4 f.cond (.reg f.d) (.raw 0) o t)
    (he : exec g.i s = s.singleOp f alu g.stall) (hr : g.fits (alu (t.aluIn o))) : g.holds s t o.d f.wz f.wc :=
  DResult.holds.of_putResult (he.trans (State.withOperands_stage4 h)) hr

/-- Without flag controls no flag is written. -/
theorem DResult.holds.dualPOp {f : DualP} {alu : AluIn → Word} (h : s.stage4 f.cond (.reg f.d) (si f.i f.s) o t)
    (he : exec g.i s = s.dualPOp f alu g.stall) (hr : g.fits (.of (alu (t.aluIn o)) false)) :
    g.holds s t o.d false false := by
  refine DResult.holds.of_putResult (he.trans ((State.withOperands_stage4 h).trans ?_)) hr
  rw [State.putResult, Cog.setFlags_none]
  rfl

theorem FlagResult.holds.dualTest {g : FlagResult} {f : Dual} {alu : AluIn → Result}
    (h : s.stage4 f.cond (.reg f.d) (si f.i f.s) o t) (he : exec g.i s = s.dualTest f alu)
    (hz : g.z (alu (t.aluIn o)).z) (hc : g.c (alu (t.aluIn o)).c) : g.holds s t f.wz f.wc :=
  ⟨_, _, hz, hc, he.trans (State.withOperands_stage4 h)⟩
end

end Sys2Proof.Machine
end

section
/-!
PROOFS. The obligations on the results of the arithmetic, logic, bit and field instructions (45_alu.md).
-/

set_option Elab.async false

namespace Sys2Proof.Machine

open Sys2Proof

/-- Settles O11: the ALU function of each instruction against the spec's formula. -/
theorem bitAndLogicResults : Obligations.BitAndLogicResults := by
  intro s t f o h
  have par (r : Word) : parity r = oddOnes r := parity_eq_oddOnes r
  have put := (t.aluIn o).putBit_eq
  have notPut (b : Bool) {x y : Word} : (if (!b) = true then x else y) = if b = true then y else x := by cases b <;> rfl
  simp only [List.forall_mem_cons]
  exact ⟨.dualOp h (exec_isob s f) ⟨rfl, rfl, trivial⟩,
    .dualOp h (exec_notb s f) ⟨rfl, rfl, trivial⟩,
    .dualOp h (exec_clrb s f) ⟨rfl, rfl, trivial⟩,
    .dualOp h (exec_setb s f) ⟨rfl, rfl, trivial⟩,
    .dualOp h (exec_setbc s f) ⟨put _, rfl, trivial⟩,
    .dualOp h (exec_setbnc s f) ⟨(put _).trans (notPut _), rfl, trivial⟩,
    .dualOp h (exec_setbz s f) ⟨put _, rfl, trivial⟩,
    .dualOp h (exec_setbnz s f) ⟨(put _).trans (notPut _), rfl, trivial⟩,
    .dualOp h (exec_andn s f) ⟨rfl, rfl, par _⟩,
    .dualOp h (exec_and s f) ⟨rfl, rfl, par _⟩,
    .dualOp h (exec_or s f) ⟨rfl, rfl, par _⟩,
    .dualOp h (exec_xor s f) ⟨rfl, rfl, par _⟩,
    .dualOp h (exec_muxc s f) ⟨rfl, rfl, par _⟩,
    .dualOp h (exec_muxnc s f) ⟨rfl, rfl, par _⟩,
    .dualOp h (exec_muxz s f) ⟨rfl, rfl, par _⟩,
    .dualOp h (exec_muxnz s f) ⟨rfl, rfl, par _⟩, List.forall_mem_nil _⟩

/-- Settles O12: each shift bit by bit, and the end bit in C for a count of 0 or 1. -/
theorem shiftInstructionResults : Obligations.ShiftInstructionResults := by
  intro s t f o h
  have hb : (bits o.sv 0 5).toNat < 32 := (t.aluIn o).b_lt
  have low (hb1 : (bits o.sv 0 5).toNat ≤ 1) : (t.aluIn o).shiftC (o.dv.getLsbD 0) = o.dv.getLsbD 0 :=
    AluIn.shiftC_of_le_one (a := t.aluIn o) hb1
  have high (hb1 : (bits o.sv 0 5).toNat ≤ 1) : (t.aluIn o).shiftC o.dv.msb = o.dv.getLsbD 31 :=
    (AluIn.shiftC_of_le_one (a := t.aluIn o) hb1).trans (BitVec.msb_eq_getLsbD_last _)
  simp only [List.forall_mem_cons]
  exact ⟨.dualOp h (exec_ror s f) ⟨rotateRight_eq _ hb, rfl, low⟩,
    .dualOp h (exec_rol s f) ⟨rotateLeft_eq _ hb, rfl, high⟩,
    .dualOp h (exec_shr s f) ⟨rfl, rfl, low⟩,
    .dualOp h (exec_shl s f) ⟨rfl, rfl, high⟩,
    .dualOp h (exec_rcr s f) ⟨fun _ hk => getLsbD_rcr _ _ hk, rfl, low⟩,
    .dualOp h (exec_rcl s f) ⟨fun _ hk => getLsbD_rcl _ _ hk, rfl, high⟩,
    .dualOp h (exec_sar s f) ⟨fun _ hk => getLsbD_sar _ hk, rfl, low⟩,
    .dualOp h (exec_rev s f) ⟨fun k _ => getLsbD_rev _ _ k, rfl, low⟩, List.forall_mem_nil _⟩

/-! Comparisons of words, as the spec writes them. -/

theorem ite_ult (d s : Word) {α : Type} (x y : α) : (if d.ult s then x else y) = if d.toNat < s.toNat then x else y := by
  simp only [BitVec.ult_eq_decide, decide_eq_true_eq]

theorem ite_slt (d s : Word) {α : Type} (x y : α) : (if d.slt s then x else y) = if d.toInt < s.toInt then x else y := by
  simp only [BitVec.slt_eq_decide, decide_eq_true_eq]

theorem absOf_eq (v : Word) : absOf v = if v.getLsbD 31 then 0 - v else v := by
  rw [absOf, BitVec.msb_eq_getLsbD_last]

theorem toNat_carry (c : Bool) : ((BitVec.ofBool c).setWidth 32).toNat = c.toNat := by cases c <;> rfl

theorem carryAdd_eq (d s : Word) (c : Bool) :
    carryAdd d s c = decide (2 ^ 32 ≤ d.toNat + s.toNat + ((BitVec.ofBool c).setWidth 32).toNat) := by
  rw [toNat_carry, carryAdd]

theorem borrowSub_eq (d s : Word) (c : Bool) :
    borrowSub d s c = decide (d.toNat < s.toNat + ((BitVec.ofBool c).setWidth 32).toNat) := by
  rw [toNat_carry, borrowSub]

/-- Z of the extended instructions as far as R554 fixes it. -/
theorem AluIn.extZ_spec (a : AluIn) (r : Word) :
    (r ≠ 0 → a.extZ r = false) ∧ (r = 0 → a.z = true → a.extZ r = true) := by
  refine ⟨fun h => ?_, fun h hz => ?_⟩
  · rw [AluIn.extZ, zOf_eq_decide, decide_eq_false h]; rfl
  · rw [AluIn.extZ, zOf_eq_decide, decide_eq_true h, hz]; rfl

/-- A modular count: the end, and C, where the limit is reached. -/
theorem modCount_fits {p : Prop} [Decidable p] {x y : Word} {g : DResult} (hr : g.r = (· = if p then x else y))
    (hz : g.z = fun r z => z = decide (r = 0)) (hc : g.c = (· = decide p)) :
    g.fits (if p then .of x true else .of y false) := by
  rw [DResult.fits, hr, hz, hc]
  by_cases hp : p
  · simp only [hp, if_true, decide_true]; exact ⟨rfl, rfl, rfl⟩
  · simp only [hp, if_false, decide_false]; exact ⟨rfl, rfl, rfl⟩

/-- CMPSUB subtracts where it can; below, D stays and Z is open if D is 0 (R609, U23). -/
theorem cmpsub_fits (d s : Word) (free : Bool) {g : DResult} (hr : g.r = (· = if s.toNat ≤ d.toNat then d - s else d))
    (hz : g.z = fun r z => (d.toNat < s.toNat ∧ d = 0) ∨ z = decide (r = 0)) (hc : g.c = (· = decide (s.toNat ≤ d.toNat))) :
    g.fits (if d.ult s then ⟨d, if zOf d then free else false, false⟩ else .of (d - s) true) := by
  rw [DResult.fits, hr, hz, hc, ite_ult]
  by_cases h : d.toNat < s.toNat
  · have hn : ¬s.toNat ≤ d.toNat := Nat.not_le.mpr h
    simp only [h, hn, if_true, if_false, decide_false, true_and, and_true, zOf_eq_decide]
    by_cases h0 : d = 0
    · exact .inl h0
    · exact .inr (by simp only [decide_eq_false h0, Bool.false_eq_true, if_false])
  · simp only [h, Nat.not_lt.mp h, if_true, if_false, decide_true, Result.of, zOf_eq_decide, false_and, false_or, and_self]

/-- Settles O13. -/
theorem moveAndLimitResults : Obligations.MoveAndLimitResults := by
  intro s t f o h
  have msb (v : Word) : v.msb = v.getLsbD 31 := BitVec.msb_eq_getLsbD_last v
  simp only [List.forall_mem_cons]
  exact ⟨.dualOp h (exec_mov s f) ⟨rfl, rfl, msb _⟩,
    .dualOp h (exec_not s f) ⟨rfl, rfl, trivial⟩,
    .dualOp h (exec_abs s f) ⟨absOf_eq _, rfl, msb _⟩,
    .dualOp h (exec_neg s f) ⟨rfl, rfl, trivial⟩,
    .dualOp h (exec_negc s f) ⟨rfl, rfl, trivial⟩,
    .dualOp h (exec_negnc s f) ⟨rfl, rfl, trivial⟩,
    .dualOp h (exec_negz s f) ⟨rfl, rfl, trivial⟩,
    .dualOp h (exec_negnz s f) ⟨rfl, rfl, trivial⟩,
    .dualOp h (exec_min s f) ⟨ite_ult _ _ _ _, trivial, BitVec.ult_eq_decide⟩,
    .dualOp h (exec_max s f) ⟨ite_ult _ _ _ _, trivial, trivial⟩,
    .dualOp h (exec_mins s f) ⟨ite_slt _ _ _ _, trivial, BitVec.slt_eq_decide⟩,
    .dualOp h (exec_maxs s f) ⟨ite_slt _ _ _ _, trivial, trivial⟩,
    .dualOp h (exec_incmod s f) (modCount_fits rfl rfl rfl),
    .dualOp h (exec_decmod s f) (modCount_fits rfl rfl rfl),
    .dualOp h (exec_cmpsub s f) (cmpsub_fits _ _ _ rfl rfl rfl), List.forall_mem_nil _⟩

/-- Settles O14. -/
theorem sumInstructionResults : Obligations.SumInstructionResults := by
  intro s t f o h
  have ext := (t.aluIn o).extZ_spec
  have add (x : Word) : o.dv + absOf x = o.dv + if x.getLsbD 31 then 0 - x else x := by rw [absOf_eq]
  have sub (x : Word) : o.dv - absOf x = o.dv - if x.getLsbD 31 then 0 - x else x := by rw [absOf_eq]
  simp only [List.forall_mem_cons]
  exact ⟨.dualOp h (exec_add s f) ⟨rfl, rfl, rfl⟩,
    .dualOp h (exec_sub s f) ⟨rfl, rfl, rfl⟩,
    .dualOp h (exec_addx s f) ⟨rfl, ext _, carryAdd_eq _ _ _⟩,
    .dualOp h (exec_subx s f) ⟨rfl, ext _, borrowSub_eq _ _ _⟩,
    .dualOp h (exec_adds s f) ⟨rfl, rfl, trivial⟩,
    .dualOp h (exec_subs s f) ⟨rfl, rfl, trivial⟩,
    .dualOp h (exec_addsx s f) ⟨rfl, ext _, trivial⟩,
    .dualOp h (exec_subsx s f) ⟨rfl, ext _, trivial⟩,
    .dualOp h (exec_sumc s f) ⟨rfl, rfl, trivial⟩,
    .dualOp h (exec_sumnc s f) ⟨rfl, rfl, trivial⟩,
    .dualOp h (exec_sumz s f) ⟨rfl, rfl, trivial⟩,
    .dualOp h (exec_sumnz s f) ⟨rfl, rfl, trivial⟩,
    .dualOp h (exec_addabs s f) ⟨add _, rfl, trivial⟩,
    .dualOp h (exec_subabs s f) ⟨sub _, rfl, trivial⟩,
    .dualOp h (exec_subr s f) ⟨rfl, rfl, rfl⟩, List.forall_mem_nil _⟩

theorem bits_decoded (a : AluIn) {n k : Nat} (hn : n ≤ 32) : bits (a.lowOnly n (1#32 <<< k)) 0 n = 1#n <<< k := by
  rw [bits_lowOnly a hn, bits_one_shiftLeft hn]

/-- Settles O15. -/
theorem countAndDecodeResults : Obligations.CountAndDecodeResults := by
  have count (v : Word) : countWord (ones v) = BitVec.ofNat 32 ((List.range 32).countP (v.getLsbD ·)) := by
    rw [countWord, ones_eq_countP]
  have zeros (v : Word) : countWord (32 - ones v) = BitVec.ofNat 32 (32 - (List.range 32).countP (v.getLsbD ·)) := by
    rw [countWord, ones_eq_countP]
  refine ⟨fun s t f o h => ?_, fun s t f o h => ?_, fun s t f o h => ?_⟩ <;> simp only [List.forall_mem_cons]
  · exact ⟨.dualOp h (exec_mul s f) ⟨trivial, rfl, trivial⟩,
      .dualOp h (exec_scl s f) ⟨trivial, rfl, trivial⟩,
      .dualOp h (exec_decod2 s f) ⟨bits_decoded _ (by decide), rfl, trivial⟩,
      .dualOp h (exec_decod3 s f) ⟨bits_decoded _ (by decide), rfl, trivial⟩,
      .dualOp h (exec_decod4 s f) ⟨bits_decoded _ (by decide), rfl, trivial⟩,
      .dualOp h (exec_decod5 s f) ⟨rfl, rfl, trivial⟩, List.forall_mem_nil _⟩
  · exact ⟨.dualZOp h (exec_onecnt s f) ⟨count _, zOf_eq_decide _, trivial⟩,
      .dualZOp h (exec_zercnt s f) ⟨zeros _, zOf_eq_decide _, trivial⟩,
      .dualZOp h (exec_encod s f) ⟨trivial, rfl, trivial⟩,
      .dualZOp h (exec_blmask s f) ⟨trivial, rfl, trivial⟩, List.forall_mem_nil _⟩
  · exact ⟨.dualCOp h (exec_incpat s f) rfl ⟨trivial, rfl, trivial⟩,
      .dualCOp h (exec_decpat s f) rfl ⟨trivial, rfl, trivial⟩, List.forall_mem_nil _⟩

/-- A field moved to the bottom, under open upper bits. -/
theorem bits_movedField (a : AluIn) (v : Word) (lo : Nat) {n : Nat} (hn : n ≤ 32) :
    bits (a.lowOnly n (getField v lo n)) 0 n = bits v lo n := by
  rw [bits_lowOnly a hn, bits_getField v lo hn]

/-- The colours of UNPKRGB stand in the top five bits of three bytes (R644). -/
theorem AluIn.unpackColours_spec (a : AluIn) :
    bits a.unpackColours 19 5 = bits a.s 10 5 ∧ bits a.unpackColours 11 5 = bits a.s 5 5
      ∧ bits a.unpackColours 3 5 = bits a.s 0 5 ∧ bits a.unpackColours 24 8 = 0 := by
  unfold AluIn.unpackColours
  refine ⟨?_, ?_, ?_, ?_⟩
  · rw [bits_append_low _ _ (by decide), bits_append_high _ _ (by decide), bits_all]
  · iterate 3 rw [bits_append_low _ _ (by decide)]
    rw [bits_append_high _ _ (by decide), bits_all]
  · iterate 5 rw [bits_append_low _ _ (by decide)]
    rw [bits_append_high _ _ (by decide), bits_all]
  · rw [bits_append_high _ _ (by decide), bits_all]
    rfl

/-- PACKRGB's parts one by one (R643). -/
theorem packColours_append (v : Word) (w : BitVec 16) :
    (0#1 ++ (packColours v ++ w) : Word) = 0#1 ++ (bits v 19 5 ++ (bits v 11 5 ++ (bits v 3 5 ++ w))) := by
  apply BitVec.eq_of_toNat_eq
  unfold packColours
  simp only [toNat_append_eq]
  omega

/-- Settles O16. -/
theorem fieldInstructionResults : Obligations.FieldInstructionResults := by
  intro s t f n3 n2 n1 o h
  have put (lo n : Nat) : ∀ k < 32, (setField o.dv lo n o.sv).getLsbD k
      = if lo ≤ k ∧ k < lo + n then o.sv.getLsbD (k - lo) else o.dv.getLsbD k := fun k hk => getLsbD_setField hk
  simp only [List.forall_mem_cons]
  exact ⟨.dualPOp h (exec_setnib s n3 f) ⟨put _ _, rfl, trivial⟩,
    .dualPOp h (exec_setbyte s n2 f) ⟨put _ _, rfl, trivial⟩,
    .dualPOp h (exec_setword s n1 f) ⟨put _ _, rfl, trivial⟩,
    .dualPOp h (exec_sets s f) ⟨put _ _, rfl, trivial⟩,
    .dualPOp h (exec_setd s f) ⟨put _ _, rfl, trivial⟩,
    .dualPOp h (exec_seti s f) ⟨put _ _, rfl, trivial⟩,
    .dualPOp h (exec_getnib s n3 f) ⟨bits_movedField _ _ _ (by decide), rfl, trivial⟩,
    .dualPOp h (exec_getbyte s n2 f) ⟨bits_movedField _ _ _ (by decide), rfl, trivial⟩,
    .dualPOp h (exec_getword s n1 f) ⟨bits_movedField _ _ _ (by decide), rfl, trivial⟩,
    .dualPOp h (exec_setwrds s f) ⟨rfl, rfl, trivial⟩,
    .dualPOp h (exec_setbyts s f) ⟨setbyts_eq _, rfl, trivial⟩,
    .dualPOp h (exec_rolnib s f) ⟨shifted_in _ _ (n := 4) (by decide), rfl, trivial⟩,
    .dualPOp h (exec_rolbyte s f) ⟨shifted_in _ _ (n := 8) (by decide), rfl, trivial⟩,
    .dualPOp h (exec_rolword s f) ⟨shifted_in _ _ (n := 16) (by decide), rfl, trivial⟩,
    .dualPOp h (exec_movbyts s f) ⟨bits_fourBytes (movedByte o.dv o.sv), rfl, trivial⟩,
    .dualPOp h (exec_packrgb s f) ⟨packColours_append _ _, rfl, trivial⟩,
    .dualPOp h (exec_unpkrgb s f) ⟨(t.aluIn o).unpackColours_spec, rfl, trivial⟩, List.forall_mem_nil _⟩

/-- A difference is zero exactly for equal words. -/
theorem zOf_sub (d s : Word) : zOf (d - s) = decide (d = s) := by
  rw [zOf_eq_decide]
  exact decide_eq_decide.mpr sub_eq_zero

/-- Settles O17. -/
theorem testInstructionFlags : Obligations.TestInstructionFlags := by
  intro s t f o h
  have par (r : Word) : parity r = oddOnes r := parity_eq_oddOnes r
  have ext := (t.aluIn o).extZ_spec
  simp only [List.forall_mem_cons]
  exact ⟨.dualTest h (exec_testb s f) rfl trivial,
    .dualTest h (exec_testn s f) rfl (par _),
    .dualTest h (exec_test s f) rfl (par _),
    .dualTest h (exec_cmp s f) (zOf_sub _ _) rfl,
    .dualTest h (exec_cmpx s f) (ext _) (borrowSub_eq _ _ _),
    .dualTest h (exec_cmps s f) (zOf_sub _ _) BitVec.slt_eq_decide,
    .dualTest h (exec_cmpsx s f) (ext _) trivial,
    .dualTest h (exec_cmpr s f) ((zOf_sub _ _).trans (decide_eq_decide.mpr eq_comm)) rfl, List.forall_mem_nil _⟩

/-- Settles O18. -/
theorem unaryAndOpenResults : Obligations.UnaryAndOpenResults := by
  refine ⟨fun s t f o h => ?_, fun s t f o h => ?_, fun s t f o h => ?_⟩
  · have gray : ∀ k < 32, (o.dv ^^^ (o.dv >>> 1)).getLsbD k = (o.dv.getLsbD k ^^ o.dv.getLsbD (k + 1)) := fun k _ => by
      rw [BitVec.getLsbD_xor, BitVec.getLsbD_ushiftRight, Nat.add_comm]
    simp only [List.forall_mem_cons]
    exact ⟨.singleOp h (exec_bingry s f) ⟨gray, rfl, trivial⟩,
      .singleOp h (exec_grybin s f) ⟨⟨getLsbD_grayToBinary_top _, fun k _ => getLsbD_grayToBinary _ k⟩, zOf_eq_decide _, trivial⟩,
      .singleOp h (exec_incd s f) ⟨rfl, zOf_eq_decide _, trivial⟩,
      .singleOp h (exec_decd s f) ⟨rfl, zOf_eq_decide _, trivial⟩,
      .singleOp h (exec_incds s f) ⟨rfl, zOf_eq_decide _, trivial⟩,
      .singleOp h (exec_decds s f) ⟨rfl, zOf_eq_decide _, trivial⟩, List.forall_mem_nil _⟩
  · simp only [List.forall_mem_cons]
    exact ⟨.dualPOp h (exec_splitb s f) ⟨trivial, rfl, trivial⟩,
      .dualPOp h (exec_mergeb s f) ⟨trivial, rfl, trivial⟩,
      .dualPOp h (exec_splitw s f) ⟨trivial, rfl, trivial⟩,
      .dualPOp h (exec_mergew s f) ⟨trivial, rfl, trivial⟩,
      .dualPOp h (exec_setx s f) ⟨trivial, rfl, trivial⟩,
      .dualPOp h (exec_mergen s f) ⟨trivial, rfl, trivial⟩,
      .dualPOp h (exec_splitn s f) ⟨trivial, rfl, trivial⟩, List.forall_mem_nil _⟩
  · simp only [List.forall_mem_cons]
    exact ⟨.singleOp h (exec_getlfsr s f) ⟨trivial, rfl, trivial⟩,
      .singleOp h (exec_binbcd s f) ⟨trivial, rfl, trivial⟩,
      .singleOp h (exec_bcdbin s f) ⟨trivial, rfl, trivial⟩,
      .singleOp h (exec_eswap4 s f) ⟨trivial, rfl, trivial⟩,
      .singleOp h (exec_eswap8 s f) ⟨trivial, rfl, trivial⟩,
      .singleOp h (exec_seussf s f) ⟨trivial, rfl, trivial⟩,
      .singleOp h (exec_seussr s f) ⟨trivial, rfl, trivial⟩, List.forall_mem_nil _⟩

end Sys2Proof.Machine
end

section
/-!
PROOFS. What a step leaves alone, composed from what each state operation leaves alone (10_state.md, section 9).
-/

set_option Elab.async false

namespace Sys2Proof.Machine

open Sys2Proof

/-! ### Within a cog -/

/-- What an instruction has left alone in its cog so far: every register but those of `writes`, every AUX long but those
of `pushes`, the other tasks, and the flags that are not asked for. -/
structure Cog.framed (c k : Cog) (writes : RegAddr → Prop) (pushes : Byte → Prop) (wz wc : Bool) : Prop where
  cur : k.cur = c.cur
  registers : ∀ a, ¬writes a → k.stored a = c.stored a
  aux : ∀ a, ¬pushes a → auxRead k.aux a = auxRead c.aux a
  tasks : ∀ i, i ≠ c.cur → k.tasks.get i = c.tasks.get i
  z : wz = false → k.task.z = c.task.z
  c : wc = false → k.task.c = c.task.c

section
variable {c k l : Cog} {writes : RegAddr → Prop} {pushes : Byte → Prop} {wz wc : Bool}

theorem Cog.framed.refl (c : Cog) (writes : RegAddr → Prop) (pushes : Byte → Prop) (wz wc : Bool) :
    c.framed c writes pushes wz wc :=
  ⟨rfl, fun _ _ => rfl, fun _ _ => rfl, fun _ _ => rfl, fun _ => rfl, fun _ => rfl⟩

theorem Cog.framed.trans (h : c.framed k writes pushes wz wc) (g : k.framed l writes pushes wz wc) :
    c.framed l writes pushes wz wc where
  cur := g.cur.trans h.cur
  registers a ha := (g.registers a ha).trans (h.registers a ha)
  aux a ha := (g.aux a ha).trans (h.aux a ha)
  tasks i hi := (g.tasks i (h.cur ▸ hi)).trans (h.tasks i hi)
  z hz := (g.z hz).trans (h.z hz)
  c hc := (g.c hc).trans (h.c hc)

/-- Only fields outside the frame change. -/
theorem Cog.framed.of_same (hram : k.ram = c.ram) (hout : k.ports.out = c.ports.out) (hdir : k.ports.dir = c.ports.dir)
    (haux : k.aux = c.aux) (ht : k.tasks = c.tasks) (hcur : k.cur = c.cur) : c.framed k writes pushes wz wc where
  cur := hcur
  registers a _ := by rw [Cog.stored, Cog.stored, hram, hout, hdir]
  aux a _ := by rw [haux]
  tasks i _ := by rw [ht]
  z _ := by rw [Cog.task, Cog.task, ht, hcur]
  c _ := by rw [Cog.task, Cog.task, ht, hcur]

theorem Cog.framed.setTask {u : Task} (hz : wz = false → u.z = c.task.z) (hc : wc = false → u.c = c.task.c) :
    c.framed (c.setTask u) writes pushes wz wc where
  cur := rfl
  registers _ _ := rfl
  aux _ _ := rfl
  tasks _ hi := Cog.tasks_setTask_ne c u hi
  z h := by rw [Cog.task_setTask]; exact hz h
  c h := by rw [Cog.task_setTask]; exact hc h

theorem Cog.framed.setFlags (z b : Bool) : c.framed (c.setFlags wz wc z b) writes pushes wz wc :=
  .setTask (fun h => by rw [Task.z_setFlags, h]; rfl) (fun h => by rw [Task.c_setFlags, h]; rfl)

theorem Cog.framed.writeReg {a : RegAddr} (ha : writes a) (v : Word) : c.framed (c.writeReg a v) writes pushes wz wc where
  cur := Cog.cur_writeReg c a v
  registers b hb := Cog.stored_writeReg_ne fun e => hb (e ▸ ha)
  aux _ _ := by rw [Cog.aux_writeReg]
  tasks i _ := by rw [Cog.tasks_writeReg]
  z _ := by rw [Cog.task_writeReg]
  c _ := by rw [Cog.task_writeReg]

theorem Cog.framed.setAux {a : Byte} (ha : pushes a) (v : Word) :
    c.framed { c with aux := auxWrite c.aux a v } writes pushes wz wc where
  cur := rfl
  registers _ _ := rfl
  aux _ hb := auxRead_auxWrite_ne c.aux v fun e => hb (e ▸ ha)
  tasks _ _ := rfl
  z _ := rfl
  c _ := rfl

theorem Cog.framed.decoded (cond : BitVec 4) (du : DUse) (su : SUse) : c.framed (c.decoded cond du su) writes pushes wz wc where
  cur := rfl
  registers _ _ := rfl
  aux _ _ := rfl
  tasks _ hi := Cog.tasks_decoded_ne c cond du su hi
  z _ := Cog.task_z_decoded c cond du su
  c _ := Cog.task_c_decoded c cond du su

theorem Cog.framed.redirect (s : State) (p : Addr) : c.framed (s.redirect c c.cur p) writes pushes wz wc where
  cur := rfl
  registers _ _ := rfl
  aux _ _ := rfl
  tasks _ hi := Quad.get_set_ne _ _ hi
  z _ := (congrArg Task.z (Quad.get_set_same c.tasks c.cur _)).trans rfl
  c _ := (congrArg Task.c (Quad.get_set_same c.tasks c.cur _)).trans rfl

theorem Cog.framed.delayed (p : Addr) : c.framed (c.delayed p) writes pushes wz wc where
  cur := rfl
  registers _ _ := rfl
  aux _ _ := rfl
  tasks _ hi := Quad.get_set_ne _ _ hi
  z _ := (congrArg Task.z (Quad.get_set_same c.tasks c.cur _)).trans rfl
  c _ := (congrArg Task.c (Quad.get_set_same c.tasks c.cur _)).trans rfl

end

/-! ### Within the machine -/

/-- What an instruction has left alone in the machine so far. -/
structure State.framed (s u : State) (stores : Nat → Prop) (writes : RegAddr → Prop) (pushes : Byte → Prop)
    (wz wc : Bool) : Prop where
  memory : ∀ a, ¬stores a → u.hub.mem.byte a = s.hub.mem.byte a
  cnt : u.hub.cnt = s.hub.cnt
  clk : u.hub.clk = s.hub.clk
  lockState : u.hub.lockState = s.hub.lockState
  lockTaken : u.hub.lockTaken = s.hub.lockTaken
  cur : u.cur = s.cur
  cogs : ∀ k, k ≠ s.cur → u.cogs.get k = s.cogs.get k
  cog : s.cog.framed u.cog writes pushes wz wc

section
variable {s u : State} {c : Cog} {stores : Nat → Prop} {writes : RegAddr → Prop} {pushes : Byte → Prop} {wz wc : Bool}

theorem State.framed.refl (s : State) (stores : Nat → Prop) (writes : RegAddr → Prop) (pushes : Byte → Prop) (wz wc : Bool) :
    s.framed s stores writes pushes wz wc :=
  ⟨fun _ _ => rfl, rfl, rfl, rfl, rfl, rfl, fun _ _ => rfl, .refl _ _ _ _ _⟩

theorem State.framed.setCog (h : s.framed u stores writes pushes wz wc) (hc : u.cog.framed c writes pushes wz wc) :
    s.framed (u.setCog c) stores writes pushes wz wc where
  memory := h.memory
  cnt := h.cnt
  clk := h.clk
  lockState := h.lockState
  lockTaken := h.lockTaken
  cur := h.cur
  cogs k hk := (State.cogs_setCog_ne u c (h.cur ▸ hk)).trans (h.cogs k hk)
  cog := by rw [State.cog_setCog]; exact h.cog.trans hc

/-- A store: the hub apart from its memory stays, and the bytes that change are named. -/
theorem State.framed.withHub (h : s.framed u stores writes pushes wz wc) {b : Hub}
    (hm : ∀ a, ¬stores a → b.mem.byte a = u.hub.mem.byte a) (hcnt : b.cnt = u.hub.cnt) (hclk : b.clk = u.hub.clk)
    (hst : b.lockState = u.hub.lockState) (htk : b.lockTaken = u.hub.lockTaken) :
    s.framed { u with hub := b } stores writes pushes wz wc where
  memory a ha := (hm a ha).trans (h.memory a ha)
  cnt := hcnt.trans h.cnt
  clk := hclk.trans h.clk
  lockState := hst.trans h.lockState
  lockTaken := htk.trans h.lockTaken
  cur := h.cur
  cogs := h.cogs
  cog := h.cog

theorem State.framed.opened (s : State) (cond : BitVec 4) (du : DUse) (su : SUse) :
    s.framed (s.opened cond du su) stores writes pushes wz wc :=
  (State.framed.refl s _ _ _ _ _).setCog (.decoded cond du su)

/-- The end of the instruction cycle: what was left alone is the frame of the step. -/
theorem State.framed.endCycle (h : s.framed u stores writes pushes wz wc) (hc : u.cog.framed c writes pushes wz wc)
    (stall : Nat) : s.frame (u.setCog (c.endCycle stall)) stores writes pushes wz wc := by
  have hk := h.cog.trans hc
  have htask : c.tasks.get s.cog.cur = c.task := by rw [Cog.task, hk.cur]
  exact {
    memory := h.memory
    cnt := h.cnt
    clk := h.clk
    lockState := h.lockState
    lockTaken := h.lockTaken
    cur := h.cur
    cogs := fun k hne => (State.cogs_setCog_ne u _ (h.cur ▸ hne)).trans (h.cogs k hne)
    registers := fun a ha => by rw [State.cog_setCog]; exact hk.registers a ha
    aux := fun a ha => by rw [State.cog_setCog]; exact hk.aux a ha
    tasks := fun i hi => by rw [State.cog_setCog]; exact hk.tasks i hi
    z := fun hz => by rw [State.cog_setCog, Cog.tasks_endCycle, htask]; exact hk.z hz
    c := fun hz => by rw [State.cog_setCog, Cog.tasks_endCycle, htask]; exact hk.c hz }

theorem State.framed.ends (h : s.framed u stores writes pushes wz wc) (hc : u.cog.framed c writes pushes wz wc)
    (stall : Nat) : s.frame (u.ends c stall) stores writes pushes wz wc :=
  h.endCycle (hc.trans (.setTask (fun _ => Task.z_advance _) (fun _ => Task.c_advance _))) stall

/-- While an instruction waits, nothing but its place in stage 4 changes. -/
theorem State.framed.waits (h : s.framed u stores writes pushes wz wc) (o : Operands) (pin : Bool) :
    s.frame (u.waits o pin) stores writes pushes wz wc := by
  have htask : u.cog.tasks.get s.cog.cur = u.cog.task := by rw [Cog.task, h.cog.cur]
  exact {
    memory := h.memory
    cnt := h.cnt
    clk := h.clk
    lockState := h.lockState
    lockTaken := h.lockTaken
    cur := h.cur
    cogs := fun k hne => (State.cogs_setCog_ne u _ (h.cur ▸ hne)).trans (h.cogs k hne)
    registers := fun a ha => by rw [State.waits, State.cog_setCog]; exact h.cog.registers a ha
    aux := fun a ha => by rw [State.waits, State.cog_setCog]; exact h.cog.aux a ha
    tasks := fun i hi => by rw [State.waits, State.cog_setCog]; exact h.cog.tasks i hi
    z := fun hz => by rw [State.waits, State.cog_setCog, htask]; exact h.cog.z hz
    c := fun hz => by rw [State.waits, State.cog_setCog, htask]; exact h.cog.c hz }

end

/-! ### Outcomes -/

/-- Whatever an outcome goes on with, it left alone what the frame names. -/
abbrev Out.leaves (out : Out) (s : State) (stores : Nat → Prop) (writes : RegAddr → Prop) (pushes : Byte → Prop)
    (wz wc : Bool) : Prop := out.keeps fun t => s.frame t stores writes pushes wz wc

section
variable {s u : State} {c : Cog} {stores : Nat → Prop} {writes : RegAddr → Prop} {pushes : Byte → Prop} {wz wc : Bool}

theorem leaves_next {t : State} (h : s.frame t stores writes pushes wz wc) :
    Out.leaves (.next t) s stores writes pushes wz wc := fun _ e => Host.Outcome.next.inj e ▸ h
theorem leaves_fault (e : Fault) : Out.leaves (.fault e) s stores writes pushes wz wc := fun _ h => by cases h
theorem leaves_refused (r : Refusal) : Out.leaves (.refused r) s stores writes pushes wz wc := fun _ h => by cases h

theorem leaves_finish (h : s.framed u stores writes pushes wz wc) (hc : u.cog.framed c writes pushes wz wc) (stall : Nat) :
    Out.leaves (u.finish c stall) s stores writes pushes wz wc := leaves_next (h.ends hc stall)

theorem leaves_finishD (h : s.framed u stores writes pushes wz wc) (hc : u.cog.framed c writes pushes wz wc)
    {d : RegAddr} (hd : writes d) (v : Word) (stall : Nat) :
    Out.leaves (u.finishD c d v stall) s stores writes pushes wz wc := by
  unfold State.finishD
  split_ifs
  · exact leaves_refused _
  · exact leaves_finish h (hc.trans (.writeReg hd v)) stall

theorem leaves_putResult (h : s.framed u stores writes pushes wz wc) {o : Operands} (hd : writes o.d) (a : Result)
    (stall : Nat) : Out.leaves (u.putResult o wz wc a stall) s stores writes pushes wz wc :=
  leaves_finishD h (.setFlags _ _) hd _ _

theorem leaves_putFlags (h : s.framed u stores writes pushes wz wc) (z b : Bool) :
    Out.leaves (u.putFlags wz wc z b) s stores writes pushes wz wc := leaves_finish h (.setFlags _ _) 0

theorem leaves_hold (h : s.framed u stores writes pushes wz wc) (o : Operands) (pin : Bool) :
    Out.leaves (u.hold o pin) s stores writes pushes wz wc := leaves_next (h.waits o pin)

theorem leaves_branch (h : s.framed u stores writes pushes wz wc) (hc : u.cog.framed c writes pushes wz wc) (p : Addr)
    (stall : Nat) : Out.leaves (u.branch c p stall) s stores writes pushes wz wc := by
  unfold State.branch
  split_ifs
  · exact leaves_refused _
  · exact leaves_next (h.endCycle (hc.trans (.redirect u p)) stall)

theorem leaves_branchD (h : s.framed u stores writes pushes wz wc) (hc : u.cog.framed c writes pushes wz wc) (p : Addr)
    (stall : Nat) : Out.leaves (u.branchD c p stall) s stores writes pushes wz wc := by
  unfold State.branchD
  split_ifs
  · exact leaves_refused _
  · exact leaves_next (h.endCycle (hc.trans (.delayed p)) stall)

theorem leaves_take (h : s.framed u stores writes pushes wz wc) (hc : u.cog.framed c writes pushes wz wc) (p : Addr)
    (delayed : Bool) (stall : Nat) : Out.leaves (u.take c p delayed stall) s stores writes pushes wz wc := by
  unfold State.take
  split_ifs
  · exact leaves_branchD h hc p stall
  · exact leaves_branch h hc p stall

theorem leaves_fallThrough (h : s.framed u stores writes pushes wz wc) (hc : u.cog.framed c writes pushes wz wc)
    (stall : Nat) : Out.leaves (u.fallThrough c stall) s stores writes pushes wz wc := by
  unfold State.fallThrough
  dsimp only
  split_ifs
  · exact leaves_finish h (hc.trans (.setTask (u := { c.task with rep := { c.task.rep with
      active := Config.freeBit u.turn 0x3100 } }) (fun _ => rfl) (fun _ => rfl))) stall
  · exact leaves_finish h hc stall

theorem leaves_waitFor (h : s.framed u stores writes pushes wz wc) (o : Operands) (ready : Bool) {go : State → Out}
    (hg : Out.leaves (go u) s stores writes pushes wz wc) :
    Out.leaves (u.waitFor o ready go) s stores writes pushes wz wc := by
  unfold State.waitFor
  split_ifs
  · exact hg
  · exact leaves_branch h (.refl _ _ _ _ _) _ 0
  · exact leaves_hold h o false

theorem leaves_atHub (h : s.framed u stores writes pushes wz wc) (o : Operands) {go : State → Out}
    (hg : Out.leaves (go u) s stores writes pushes wz wc) :
    Out.leaves (u.atHub o go) s stores writes pushes wz wc := by
  unfold State.atHub
  split_ifs
  · exact hg
  · exact leaves_hold h o false

theorem leaves_auxFree {out : Out} (hg : out.leaves s stores writes pushes wz wc) :
    Out.leaves (u.auxFree out) s stores writes pushes wz wc := by
  unfold State.auxFree
  split_ifs
  · exact leaves_refused _
  · exact hg

theorem leaves_noAugs {out : Out} (b : Bool) (hg : out.leaves s stores writes pushes wz wc) :
    Out.leaves (u.noAugs b out) s stores writes pushes wz wc := by
  unfold State.noAugs
  split_ifs
  · exact leaves_refused _
  · exact hg

theorem leaves_noAugd {out : Out} (b : Bool) (hg : out.leaves s stores writes pushes wz wc) :
    Out.leaves (u.noAugd b out) s stores writes pushes wz wc := by
  unfold State.noAugd
  split_ifs
  · exact leaves_refused _
  · exact hg

/-- A conditional instruction leaves alone what its meaning does, in the state in which it acts on its operands, and
what passing on does. -/
theorem leaves_withOperands {cond : BitVec 4} {du : DUse} {su : SUse} {body : Operands → State → Out}
    (h : ∀ u, u.cog = s.cogNow cond du su → s.framed u stores writes pushes wz wc →
      Out.leaves (body (s.opsNow cond du su) u) s stores writes pushes wz wc) :
    Out.leaves (s.withOperands cond du su body) s stores writes pushes wz wc := by
  cases hw : s.cog.pipe.waiting with
  | some w =>
    rw [State.withOperands_waits hw, ← State.opsNow_of_waiting hw]
    exact h s (State.cogNow_of_waiting hw _ _ _).symm (.refl _ _ _ _ _ _)
  | none =>
    cases hc : forced du su || condHolds cond s.task.z s.task.c with
    | true =>
      rw [State.withOperands_executes ⟨hw, hc⟩, ← State.opsNow_of_enters hw]
      exact h _ (State.cogNow_of_enters hw _ _ _).symm (.opened s cond du su)
    | false =>
      rw [State.withOperands_skips ⟨hw, hc⟩]
      exact leaves_next ((State.framed.opened s cond du su).ends (.refl _ _ _ _ _) 0)

end

end Sys2Proof.Machine
end

section
/-!
PROOFS. Register writes and reads (10_state.md, section 3), and what the arithmetic, logic, bit and field instructions
leave alone.
-/

set_option Elab.async false

namespace Sys2Proof.Machine

open Sys2Proof

/-! ### Registers and the WIDE window -/

section
variable {c : Cog} {a b : RegAddr} {v : Word}

/-- $1F2 to $1F7 are no registers of their own: a write stores nothing (R37). -/
theorem Cog.putPlain_pins (h1 : 0x1F2 ≤ a.toNat) (h2 : a.toNat < 0x1F8) : c.putPlain a v = c := by
  unfold Cog.putPlain
  rw [if_neg (by omega), if_pos h2]

/-- A window address is its base and the number of its WIDE register. -/
theorem inWindow_iff {base : RegAddr} {mapped : Bool} :
    inWindow base mapped a = true ↔ mapped = true ∧ base.toNat ≤ a.toNat ∧ a.toNat ≤ base.toNat + 7 := by
  simp only [inWindow, Bool.and_eq_true, decide_eq_true_eq, and_assoc]

theorem wideIndex_val {base : RegAddr} (h1 : base.toNat ≤ a.toNat) (h2 : a.toNat ≤ base.toNat + 7) :
    ((bits (a - base) 0 3).toFin : Fin 8).val = a.toNat - base.toNat := by
  have ha := a.isLt
  have hb := base.isLt
  have : (a - base).toNat = a.toNat - base.toNat := by rw [BitVec.toNat_sub]; omega
  simp only [BitVec.val_toFin, BitVec.extractLsb'_toNat, Nat.shiftRight_zero, this]
  omega

theorem wideIndex_eq_iff {base : RegAddr} (h1 : base.toNat ≤ a.toNat) (h2 : a.toNat ≤ base.toNat + 7) (k : Fin 8) :
    (bits (a - base) 0 3).toFin = k ↔ a.toNat = base.toNat + k.val := by
  rw [Fin.ext_iff, wideIndex_val h1 h2]
  omega

theorem Cog.wide_writeReg_regs (k : Fin 8) : (c.writeReg a v).wide.regs.get k
    = if c.wide.mapped = true ∧ a.toNat = c.wide.base.toNat + k.val then v else c.wide.regs.get k := by
  unfold Cog.writeReg
  dsimp only
  by_cases hw : inWindow c.wide.base c.wide.mapped a = true
  · obtain ⟨hm, h1, h2⟩ := inWindow_iff.mp hw
    rw [if_pos hw]
    by_cases hk : a.toNat = c.wide.base.toNat + k.val
    · rw [if_pos ⟨hm, hk⟩, (wideIndex_eq_iff h1 h2 k).mpr hk]
      exact Octet.get_set_same _ _ _
    · rw [if_neg fun h => hk h.2]
      exact Octet.get_set_ne _ _ fun h => hk ((wideIndex_eq_iff h1 h2 k).mp h.symm)
  · have : ¬(c.wide.mapped = true ∧ a.toNat = c.wide.base.toNat + k.val) := fun ⟨hm, hk⟩ =>
      hw (inWindow_iff.mpr ⟨hm, by omega, by omega⟩)
    rw [if_neg hw, if_neg this]

/-- Outside the window a write leaves the WIDE registers alone. -/
theorem Cog.wide_writeReg_outside (h : inWindow c.wide.base c.wide.mapped a = false) :
    (c.writeReg a v).wide.regs = c.wide.regs := by
  simp [Cog.writeReg, h]

/-- Of the WIDE unit a write changes registers only. -/
theorem Cog.wide_writeReg (c : Cog) (a : RegAddr) (v : Word) :
    ({ (c.writeReg a v).wide with regs := c.wide.regs } : Wide) = c.wide := by
  unfold Cog.writeReg
  dsimp only
  split_ifs <;> rfl

theorem Cog.ports_putPlain (c : Cog) (a : RegAddr) (v : Word) :
    { (c.putPlain a v).ports with out := c.ports.out, dir := c.ports.dir } = c.ports := by
  unfold Cog.putPlain
  split_ifs <;> rfl

theorem Cog.xch_putPlain (c : Cog) (a : RegAddr) (v : Word) : (c.putPlain a v).ports.xch = c.ports.xch := by
  unfold Cog.putPlain
  split_ifs <;> rfl

/-- All that a register write changes. -/
theorem Cog.writeReg_only (c : Cog) (a : RegAddr) (v : Word) :
    ({ c.writeReg a v with
       ram := c.ram, rom := c.rom, lastD := c.lastD, wide := { (c.writeReg a v).wide with regs := c.wide.regs }
       ports := { (c.writeReg a v).ports with out := c.ports.out, dir := c.ports.dir } } : Cog) = c := by
  rw [Cog.wide_writeReg, Cog.ports_writeReg, Cog.ports_putPlain]
  unfold Cog.writeReg Cog.putPlain
  split_ifs <;> rfl

theorem Cog.writeReg_spec (c : Cog) (a : RegAddr) (v : Word) :
    let w := c.writeReg a v
    let pins : Prop := 0x1F4 ≤ a.toNat ∧ a.toNat < 0x1F8
    w.lastD = v
      ∧ (a.toNat < 0x1F2 ∨ 0x1F8 ≤ a.toNat → w.stored a = v)
      ∧ (∀ b, b ≠ a ∨ pins → w.stored b = c.stored b)
      ∧ (∀ k : Fin 8, w.wide.regs.get k
          = if c.wide.mapped = true ∧ a.toNat = c.wide.base.toNat + k.val then v else c.wide.regs.get k)
      ∧ ({ w with ram := c.ram, rom := c.rom, lastD := c.lastD, wide := { w.wide with regs := c.wide.regs },
                  ports := { w.ports with out := c.ports.out, dir := c.ports.dir } } : Cog) = c := by
  refine ⟨rfl, Cog.stored_writeReg_same, fun b hb => ?_, Cog.wide_writeReg_regs, c.writeReg_only a v⟩
  obtain hne | ⟨h1, h2⟩ := hb
  · exact Cog.stored_writeReg_ne hne
  · show (c.putPlain a v).stored b = c.stored b
    rw [Cog.putPlain_pins (by omega) h2]

/-! Register reads, by the ranges of R36. -/

theorem portIndex {base : Nat} (p : Fin 4) (hb : base % 4 = 0) (h : a.toNat = base + p.val) : (bits a 0 2).toFin = p := by
  rw [Fin.ext_iff]
  simp only [BitVec.val_toFin, BitVec.extractLsb'_toNat, Nat.shiftRight_zero]
  omega

theorem State.plainReg_stored (s : State) (c : Cog) (h : a.toNat < 0x1F2 ∨ 0x1F8 ≤ a.toNat) :
    s.plainReg c a = c.stored a := by
  unfold State.plainReg Cog.stored
  split_ifs <;> first | rfl | omega

theorem State.plainReg_pins (s : State) (c : Cog) {p : Fin 4} (h : a.toNat = 0x1F4 + p.val) :
    s.plainReg c a = s.pinLong c p := by
  have hp := p.isLt
  rw [State.plainReg, if_neg (by omega), if_neg (by omega), if_pos (by omega), portIndex p rfl h]

theorem State.plainReg_out (s : State) (c : Cog) {p : Fin 4} (h : a.toNat = 0x1F8 + p.val) :
    s.plainReg c a = c.ports.out.get p := by
  have hp := p.isLt
  rw [State.plainReg, if_neg (by omega), if_neg (by omega), if_neg (by omega), if_pos (by omega), portIndex p rfl h]

theorem State.plainReg_dir (s : State) (c : Cog) {p : Fin 4} (h : a.toNat = 0x1FC + p.val) :
    s.plainReg c a = c.ports.dir.get p := by
  have hp := p.isLt
  rw [State.plainReg, if_neg (by omega), if_neg (by omega), if_neg (by omega), if_neg (by omega), portIndex p rfl h]

theorem State.readReg_window (s : State) (ho : ∀ o ∈ c.wide.olds, o.left = 0) (hw : ∀ o ∈ c.wide.oldWindows, o.left = 0)
    (hm : c.wide.moveLeft = 0) {k : Fin 8} (hmap : c.wide.mapped = true) (hk : a.toNat = c.wide.base.toNat + k.val) :
    s.readReg c a = c.wide.regs.get k := by
  have h1 : c.wide.base.toNat ≤ a.toNat := by omega
  have h2 : a.toNat ≤ c.wide.base.toNat + 7 := by omega
  rw [State.readReg_settled ho hw hm, if_pos (inWindow_iff.mpr ⟨hmap, h1, h2⟩), wideOf, (wideIndex_eq_iff h1 h2 k).mpr hk]

theorem State.readReg_plain (s : State) (ho : ∀ o ∈ c.wide.olds, o.left = 0) (hw : ∀ o ∈ c.wide.oldWindows, o.left = 0)
    (hm : c.wide.moveLeft = 0) (hno : ∀ k : Fin 8, ¬(c.wide.mapped = true ∧ a.toNat = c.wide.base.toNat + k.val)) :
    s.readReg c a = s.plainReg c a := by
  rw [State.readReg_settled ho hw hm, if_neg fun h => ?_]
  obtain ⟨hmap, h1, h2⟩ := inWindow_iff.mp h
  exact hno ⟨a.toNat - c.wide.base.toNat, by omega⟩ ⟨hmap, by dsimp only; omega⟩
end

/-! ### The ALU instructions -/

/-- The cog with its operands decoded, after an ALU instruction up to the end of its cycle: perhaps flags written, and
perhaps D. -/
inductive AluEnd (c : Cog) (d : RegAddr) (regs wz wc : Bool) : Cog → Prop
  | passes : AluEnd c d regs wz wc c
  | flags (z b : Bool) : AluEnd c d regs wz wc (c.setFlags wz wc z b)
  | result (hr : regs = true) (z b : Bool) (r : Word) : AluEnd c d regs wz wc ((c.setFlags wz wc z b).writeReg d r)

section
variable {s t : State} {c k : Cog} {d : RegAddr} {regs wz wc : Bool}

theorem AluEnd.framed (h : AluEnd c d regs wz wc k) : c.framed k (fun a => regs = true ∧ a = d) nowhere wz wc := by
  cases h with
  | passes => exact .refl _ _ _ _ _
  | flags z b => exact .setFlags z b
  | result hr z b r => exact (Cog.framed.setFlags z b).trans (.writeReg ⟨hr, rfl⟩ r)

theorem AluEnd.sameUnits (h : AluEnd c d regs wz wc k) : c.sameUnits k := by
  have wide (x : Cog) (a : RegAddr) (v : Word) : (x.writeReg a v).wide.base = x.wide.base
      ∧ (x.writeReg a v).wide.mapped = x.wide.mapped ∧ (x.writeReg a v).wide.tag = x.wide.tag
      ∧ (x.writeReg a v).wide.valid = x.wide.valid := by
    unfold Cog.writeReg
    dsimp only
    split_ifs <;> exact ⟨rfl, rfl, rfl, rfl⟩
  cases h with
  | passes => constructor <;> first | rfl | exact ⟨rfl, rfl, rfl, rfl⟩
  | flags z b => constructor <;> first | rfl | exact ⟨rfl, rfl, rfl, rfl⟩
  | result hr z b r => constructor <;> first | exact wide _ _ _ | exact Cog.xch_putPlain _ _ _ | simp

theorem AluEnd.inda (h : AluEnd c d regs wz wc k) : k.inda = c.inda := by
  cases h <;> simp

theorem AluEnd.indb (h : AluEnd c d regs wz wc k) : k.indb = c.indb := by
  cases h <;> simp

theorem AluEnd.stack (h : AluEnd c d regs wz wc k) : k.task.stack = c.task.stack := by
  cases h <;> simp

theorem AluEnd.wideRegs (h : AluEnd c d regs wz wc k) (hd : inWindow c.wide.base c.wide.mapped d = false ∨ regs = false) :
    k.wide.regs = c.wide.regs := by
  cases h with
  | passes => rfl
  | flags z b => rfl
  | result hr z b r =>
    obtain hd | hd := hd
    · exact Cog.wide_writeReg_outside (c := c.setFlags wz wc z b) hd
    · rw [hr] at hd; cases hd

/-- What an ALU instruction comes to on its operands: perhaps flags written, and perhaps D. -/
def AluBody (regs wz wc : Bool) (body : Operands → State → Out) : Prop :=
  ∀ o u v, body o u = .next v → ∃ k n, AluEnd u.cog o.d regs wz wc k ∧ v = u.ends k n

theorem aluBody_putResult (wz wc : Bool) (a : Operands → State → Result) (stall : Nat) :
    AluBody true wz wc fun o u => u.putResult o wz wc (a o u) stall := by
  intro o u v h
  dsimp only [State.putResult, State.finishD] at h
  split_ifs at h
  exact ⟨_, stall, .result rfl _ _ _, (Host.Outcome.next.inj h).symm⟩

theorem aluBody_finishD (a : Operands → State → Word) (stall : Nat) :
    AluBody true false false fun o u => u.finishD u.cog o.d (a o u) stall := by
  intro o u v h
  dsimp only [State.finishD] at h
  split_ifs at h
  refine ⟨_, stall, ?_, (Host.Outcome.next.inj h).symm⟩
  have := AluEnd.result (c := u.cog) (d := o.d) (wz := false) (wc := false) rfl false false (a o u)
  rwa [Cog.setFlags_none] at this

theorem aluBody_putFlags (wz wc : Bool) (a : Operands → State → Result) :
    AluBody false wz wc fun o u => u.putFlags wz wc (a o u).z (a o u).c := by
  intro o u v h
  exact ⟨_, 0, .flags _ _, (Host.Outcome.next.inj h).symm⟩

/-- An ALU instruction that enters stage 4 ends, executed or not, in such a cog. -/
theorem alu_ends {cond : BitVec 4} {f : RegAddr} {su : SUse} {body : Operands → State → Out} (he : s.enters)
    (hb : AluBody regs wz wc body) (ht : s.withOperands cond (.reg f) su body = .next t) :
    ∃ k n, AluEnd (s.cog.decoded cond (.reg f) su) (s.cog.dAddr cond (.reg f)) regs wz wc k
      ∧ t = (s.opened cond (.reg f) su).ends k n := by
  cases hc : forced (.reg f) su || condHolds cond s.task.z s.task.c with
  | true =>
    rw [State.withOperands_executes ⟨he, hc⟩] at ht
    obtain ⟨k, n, hk, hv⟩ := hb _ _ _ ht
    rw [State.cog_opened] at hk
    exact ⟨k, n, hk, hv⟩
  | false =>
    rw [State.withOperands_skips ⟨he, hc⟩, State.cog_opened] at ht
    exact ⟨_, 0, .passes, (Host.Outcome.next.inj ht).symm⟩

/-- The frame of the ALU instructions. -/
def AluKept (s t : State) (cond : BitVec 4) (d : RegAddr) (su : SUse) (regs wz wc : Bool) : Prop :=
  s.frame t nowhere (fun a => regs = true ∧ a = s.cog.dAddr cond (.reg d)) nowhere wz wc
    ∧ s.cog.sameUnits t.cog
    ∧ t.cog.inda = s.cog.inda.step (indModifier cond (.reg d) su 0x1F2#9)
    ∧ t.cog.indb = s.cog.indb.step (indModifier cond (.reg d) su 0x1F3#9)
    ∧ (inWindow s.cog.wide.base s.cog.wide.mapped (s.cog.dAddr cond (.reg d)) = false ∨ regs = false →
        t.cog.wide.regs = s.cog.wide.regs)
    ∧ (t.cog.tasks.get s.cog.cur).stack = s.task.stack

theorem Cog.sameUnits.trans {l : Cog} (h : c.sameUnits k) (g : k.sameUnits l) : c.sameUnits l := by
  constructor <;> first
    | exact ⟨g.wide.1.trans h.wide.1, g.wide.2.1.trans h.wide.2.1, g.wide.2.2.1.trans h.wide.2.2.1,
        g.wide.2.2.2.trans h.wide.2.2.2⟩
    | simp only [g.run, g.ptra, g.ptrb, g.ptrx, g.ptry, g.map, g.xch, g.task, g.chain, g.trace, g.math, g.ctra, g.ctrb,
        g.dac, g.vid, g.pix, g.mix, g.xfr, g.sera, g.serb, g.icache, g.opq, h.run, h.ptra, h.ptrb, h.ptrx, h.ptry, h.map,
        h.xch, h.task, h.chain, h.trace, h.math, h.ctra, h.ctrb, h.dac, h.vid, h.pix, h.mix, h.xfr, h.sera, h.serb,
        h.icache, h.opq]

theorem Sched.task_advance (q : Sched) : q.advance.task = q.task := by
  unfold Sched.advance
  cases q.q1 <;> rfl

theorem Cog.sameUnits_decoded (c : Cog) (cond : BitVec 4) (du : DUse) (su : SUse) : c.sameUnits (c.decoded cond du su) := by
  constructor <;> first | rfl | exact ⟨rfl, rfl, rfl, rfl⟩

theorem Cog.sameUnits_retire (c : Cog) (n : Nat) : c.sameUnits (c.retire n) := by
  constructor <;> first | rfl | exact ⟨rfl, rfl, rfl, rfl⟩ | exact Sched.task_advance _

theorem aluKept {cond : BitVec 4} {f : RegAddr} {su : SUse} {body : Operands → State → Out} {i : Instr}
    (hi : exec i s = s.withOperands cond (.reg f) su body) (hb : AluBody regs wz wc body) (he : s.enters)
    (ht : exec i s = .next t) : AluKept s t cond f su regs wz wc := by
  rw [hi] at ht
  obtain ⟨k, n, hk, rfl⟩ := alu_ends he hb ht
  have hcur : k.cur = s.cog.cur := hk.framed.cur
  refine ⟨(State.framed.opened s cond (.reg f) su).ends (by rw [State.cog_opened]; exact hk.framed) n, ?_, ?_, ?_, ?_, ?_⟩
  · rw [State.cog_ends]
    exact (s.cog.sameUnits_decoded cond (.reg f) su).trans (hk.sameUnits.trans (k.sameUnits_retire n))
  · rw [State.cog_ends, Cog.inda_retire, hk.inda]; rfl
  · rw [State.cog_ends, Cog.indb_retire, hk.indb]; rfl
  · intro hd
    rw [State.cog_ends, Wide.regs_retire]
    exact hk.wideRegs hd
  · rw [State.cog_ends, Cog.tasks_retire, ← hcur, Quad.get_set_same, Task.stack_advance, hk.stack]
    exact Cog.task_stack_decoded _ _ _ _

end

/-! Each shape of the ALU instructions. -/

section
variable {s t : State} {i : Instr}

theorem aluKept_dualOp {f : Dual} {alu : AluIn → Result} {stall : Nat} (hi : exec i s = s.dualOp f alu stall) (he : s.enters)
    (ht : exec i s = .next t) : AluKept s t f.cond f.d (si f.i f.s) true f.wz f.wc :=
  aluKept hi (aluBody_putResult f.wz f.wc (fun o u => alu (u.aluIn o)) stall) he ht

theorem aluKept_dualTest {f : Dual} {alu : AluIn → Result} (hi : exec i s = s.dualTest f alu) (he : s.enters)
    (ht : exec i s = .next t) : AluKept s t f.cond f.d (si f.i f.s) false f.wz f.wc :=
  aluKept hi (aluBody_putFlags f.wz f.wc fun o u => alu (u.aluIn o)) he ht

theorem aluKept_dualZOp {f : DualZ} {alu : AluIn → Result} {stall : Nat} (hi : exec i s = s.dualZOp f alu stall) (he : s.enters)
    (ht : exec i s = .next t) : AluKept s t f.cond f.d (si f.i f.s) true f.wz false :=
  aluKept hi (aluBody_putResult f.wz false (fun o u => alu (u.aluIn o)) stall) he ht

theorem aluKept_dualCOp {f : DualC} {alu : AluIn → Result} (hi : exec i s = s.dualCOp f alu) (he : s.enters)
    (ht : exec i s = .next t) : AluKept s t f.cond f.d (si f.i f.s) true false f.wc :=
  aluKept hi (aluBody_putResult false f.wc (fun o u => alu (u.aluIn o)) 0) he ht

theorem aluKept_dualPOp {f : DualP} {alu : AluIn → Word} {stall : Nat} (hi : exec i s = s.dualPOp f alu stall) (he : s.enters)
    (ht : exec i s = .next t) : AluKept s t f.cond f.d (si f.i f.s) true false false :=
  aluKept hi (aluBody_finishD (fun o u => alu (u.aluIn o)) stall) he ht

theorem aluKept_singleOp {f : SingleZC} {alu : AluIn → Result} {stall : Nat} (hi : exec i s = s.singleOp f alu stall)
    (he : s.enters) (ht : exec i s = .next t) : AluKept s t f.cond f.d (.raw 0) true f.wz f.wc :=
  aluKept hi (aluBody_putResult f.wz f.wc (fun o u => alu (u.aluIn o)) stall) he ht
end

/-- Settles O19: the lemmas on register writes and reads, and the frame of each shape. -/
theorem aluInstructionsFrame : Obligations.AluInstructionsFrame := by
  refine ⟨Cog.writeReg_spec, fun s c a ho hw hm => ⟨fun k hk => State.readReg_window s ho hw hm hk.1 hk.2, fun hno => ?_⟩,
    fun s t => ⟨?_, ?_, ?_, ?_, ?_, ?_⟩⟩
  · have hp := State.readReg_plain s ho hw hm hno
    exact ⟨fun h => hp.trans (s.plainReg_stored c h), fun p => ⟨fun h => hp.trans (s.plainReg_pins c h),
      fun h => hp.trans (s.plainReg_out c h), fun h => hp.trans (s.plainReg_dir c h)⟩⟩
  · intro f
    repeat rw [List.forall_mem_cons]
    exact ⟨aluKept_dualOp (exec_isob s f), aluKept_dualOp (exec_notb s f), aluKept_dualOp (exec_clrb s f),
      aluKept_dualOp (exec_setb s f), aluKept_dualOp (exec_setbc s f), aluKept_dualOp (exec_setbnc s f),
      aluKept_dualOp (exec_setbz s f), aluKept_dualOp (exec_setbnz s f), aluKept_dualOp (exec_andn s f),
      aluKept_dualOp (exec_and s f), aluKept_dualOp (exec_or s f), aluKept_dualOp (exec_xor s f),
      aluKept_dualOp (exec_muxc s f), aluKept_dualOp (exec_muxnc s f), aluKept_dualOp (exec_muxz s f),
      aluKept_dualOp (exec_muxnz s f), aluKept_dualOp (exec_ror s f), aluKept_dualOp (exec_rol s f),
      aluKept_dualOp (exec_shr s f), aluKept_dualOp (exec_shl s f), aluKept_dualOp (exec_rcr s f),
      aluKept_dualOp (exec_rcl s f), aluKept_dualOp (exec_sar s f), aluKept_dualOp (exec_rev s f),
      aluKept_dualOp (exec_mov s f), aluKept_dualOp (exec_not s f), aluKept_dualOp (exec_abs s f),
      aluKept_dualOp (exec_neg s f), aluKept_dualOp (exec_negc s f), aluKept_dualOp (exec_negnc s f),
      aluKept_dualOp (exec_negz s f), aluKept_dualOp (exec_negnz s f), aluKept_dualOp (exec_add s f),
      aluKept_dualOp (exec_sub s f), aluKept_dualOp (exec_addx s f), aluKept_dualOp (exec_subx s f),
      aluKept_dualOp (exec_adds s f), aluKept_dualOp (exec_subs s f), aluKept_dualOp (exec_addsx s f),
      aluKept_dualOp (exec_subsx s f), aluKept_dualOp (exec_sumc s f), aluKept_dualOp (exec_sumnc s f),
      aluKept_dualOp (exec_sumz s f), aluKept_dualOp (exec_sumnz s f), aluKept_dualOp (exec_min s f),
      aluKept_dualOp (exec_max s f), aluKept_dualOp (exec_mins s f), aluKept_dualOp (exec_maxs s f),
      aluKept_dualOp (exec_addabs s f), aluKept_dualOp (exec_subabs s f), aluKept_dualOp (exec_incmod s f),
      aluKept_dualOp (exec_decmod s f), aluKept_dualOp (exec_cmpsub s f), aluKept_dualOp (exec_subr s f),
      aluKept_dualOp (exec_mul s f), aluKept_dualOp (exec_scl s f), aluKept_dualOp (exec_decod2 s f),
      aluKept_dualOp (exec_decod3 s f), aluKept_dualOp (exec_decod4 s f), aluKept_dualOp (exec_decod5 s f),
      List.forall_mem_nil _⟩
  · intro f
    repeat rw [List.forall_mem_cons]
    exact ⟨aluKept_dualTest (exec_testb s f), aluKept_dualTest (exec_testn s f), aluKept_dualTest (exec_test s f),
      aluKept_dualTest (exec_cmp s f), aluKept_dualTest (exec_cmpx s f), aluKept_dualTest (exec_cmps s f),
      aluKept_dualTest (exec_cmpsx s f), aluKept_dualTest (exec_cmpr s f), List.forall_mem_nil _⟩
  · intro f
    repeat rw [List.forall_mem_cons]
    exact ⟨aluKept_dualZOp (exec_encod s f), aluKept_dualZOp (exec_blmask s f), aluKept_dualZOp (exec_onecnt s f),
      aluKept_dualZOp (exec_zercnt s f), List.forall_mem_nil _⟩
  · intro f
    repeat rw [List.forall_mem_cons]
    exact ⟨aluKept_dualCOp (exec_incpat s f), aluKept_dualCOp (exec_decpat s f), List.forall_mem_nil _⟩
  · intro f n3 n2 n1
    repeat rw [List.forall_mem_cons]
    exact ⟨aluKept_dualPOp (exec_splitb s f), aluKept_dualPOp (exec_mergeb s f), aluKept_dualPOp (exec_splitw s f),
      aluKept_dualPOp (exec_mergew s f), aluKept_dualPOp (exec_getnib s n3 f), aluKept_dualPOp (exec_setnib s n3 f),
      aluKept_dualPOp (exec_getword s n1 f), aluKept_dualPOp (exec_setword s n1 f),
      aluKept_dualPOp (exec_setwrds s f), aluKept_dualPOp (exec_rolnib s f), aluKept_dualPOp (exec_rolbyte s f),
      aluKept_dualPOp (exec_rolword s f), aluKept_dualPOp (exec_sets s f), aluKept_dualPOp (exec_setd s f),
      aluKept_dualPOp (exec_setx s f), aluKept_dualPOp (exec_seti s f), aluKept_dualPOp (exec_getbyte s n2 f),
      aluKept_dualPOp (exec_setbyte s n2 f), aluKept_dualPOp (exec_setbyts s f), aluKept_dualPOp (exec_movbyts s f),
      aluKept_dualPOp (exec_packrgb s f), aluKept_dualPOp (exec_unpkrgb s f), aluKept_dualPOp (exec_mergen s f),
      aluKept_dualPOp (exec_splitn s f), List.forall_mem_nil _⟩
  · intro f
    repeat rw [List.forall_mem_cons]
    exact ⟨aluKept_singleOp (exec_getlfsr s f), aluKept_singleOp (exec_binbcd s f), aluKept_singleOp (exec_bcdbin s f),
      aluKept_singleOp (exec_bingry s f), aluKept_singleOp (exec_grybin s f), aluKept_singleOp (exec_eswap4 s f),
      aluKept_singleOp (exec_eswap8 s f), aluKept_singleOp (exec_seussf s f), aluKept_singleOp (exec_seussr s f),
      aluKept_singleOp (exec_incd s f), aluKept_singleOp (exec_decd s f), aluKept_singleOp (exec_incds s f),
      aluKept_singleOp (exec_decds s f), List.forall_mem_nil _⟩

end Sys2Proof.Machine
end

section
/-!
PROOFS. Hub memory: pointer expressions, reads, cached reads, writes, wide transfers, window and cache control
(40_hub_memory.md, 20_memory.md).
-/

set_option Elab.async false

namespace Sys2Proof.Machine

open Sys2Proof

/-! ### Pointer expressions -/

/-- A pointer moved by a scaled signed index, modulo its width. -/
theorem add_signExtend_mul {n w : Nat} (p : BitVec n) (i : BitVec w) (k : Nat) :
    p + i.signExtend n * BitVec.ofNat n k = BitVec.ofInt n (p.toInt + i.toInt * k) := by
  rw [BitVec.ofInt_add, BitVec.ofInt_mul, BitVec.ofInt_toInt, BitVec.ofInt_natCast]
  rfl

theorem add_signExtend {n w : Nat} (p : BitVec n) (i : BitVec w) :
    p + i.signExtend n = BitVec.ofInt n (p.toInt + i.toInt) := by
  rw [BitVec.ofInt_add, BitVec.ofInt_toInt]
  rfl

theorem bits_setWidth_field (f : RegAddr) : bits (f.setWidth 32) 0 9 = f := by
  refine eq_of_getLsbD_lt fun k hk => ?_
  rw [getLsbD_bits _ hk, BitVec.getLsbD_setWidth, Nat.zero_add]
  simp [show k < 32 by omega]

theorem Cog.hubUse_expr (c : Cog) (f : RegAddr) (scale : Nat) :
    c.hubUse true (f.setWidth 32) scale = c.pointer f scale := by
  rw [Cog.hubUse, if_pos rfl, bits_setWidth_field]

theorem Cog.pointer_cog (c : Cog) (f : RegAddr) (scale : Nat) :
    let moved := (if f.getLsbD 8 then c.ptrb else c.ptra) + (bits f 0 6).signExtend 18 * BitVec.ofNat 18 scale
    (c.pointer f scale).cog =
      if f.getLsbD 7 then (if f.getLsbD 8 then { c with ptrb := moved } else { c with ptra := moved }) else c := by
  unfold Cog.pointer
  cases f.getLsbD 8 <;> cases f.getLsbD 7 <;> rfl

theorem Cog.auxUse_expr (c : Cog) {f : RegAddr} (h : f.getLsbD 8 = true) :
    c.auxUse true (f.setWidth 32) = c.auxPointer f := by
  have h8 : (f.setWidth 32).getLsbD 8 = true := by simpa using h
  rw [Cog.auxUse, h8, bits_setWidth_field]
  rfl

theorem Cog.auxUse_constant (c : Cog) {f : RegAddr} (h : f.getLsbD 8 = false) :
    c.auxUse true (f.setWidth 32) = ⟨bits f 0 8, c⟩ := by
  have h8 : (f.setWidth 32).getLsbD 8 = false := by simpa using h
  have hb : bits (f.setWidth 32) 0 8 = bits f 0 8 := by
    refine eq_of_getLsbD_lt fun k hk => ?_
    rw [getLsbD_bits _ hk, getLsbD_bits _ hk, BitVec.getLsbD_setWidth]
    simp [show k < 32 by omega]
  rw [Cog.auxUse, h8, hb]
  rfl

theorem Cog.auxPointer_cog (c : Cog) (f : RegAddr) :
    let moved := (if f.getLsbD 7 then c.ptry else c.ptrx) + (bits f 0 5).signExtend 8
    (c.auxPointer f).cog =
      if f.getLsbD 6 then (if f.getLsbD 7 then { c with ptry := moved } else { c with ptrx := moved }) else c := by
  unfold Cog.auxPointer
  cases f.getLsbD 7 <;> cases f.getLsbD 6 <;> rfl

/-- Settles O20. -/
theorem pointerExpressionEvaluation : Obligations.PointerExpressionEvaluation := by
  refine ⟨fun c f scale => ?_, fun c f v => ?_⟩
  · dsimp only
    rw [Cog.hubUse_expr, ← add_signExtend_mul]
    exact ⟨rfl, c.pointer_cog f scale, fun v => ⟨rfl, rfl⟩⟩
  · dsimp only
    refine ⟨rfl, rfl, fun h => ?_, fun h => ?_⟩
    · rw [Cog.auxUse_constant c h]
      exact ⟨rfl, rfl⟩
    · rw [Cog.auxUse_expr c h, ← add_signExtend]
      exact ⟨rfl, c.auxPointer_cog f⟩

/-! ### Bytes of what memory holds -/

section
variable (m : Memory) (a : HubAddr)

/-- Word `v` is `n` bytes of memory, zero-extended. -/
def bytesFrom (byteOf : Nat → Byte) (n : Nat) (v : Word) : Prop := ∀ k < 4, bits v (8 * k) 8 = if k < n then byteOf k else 0

theorem bytesFrom_append (f : Nat → Byte) {n : Nat} {v : Word}
    (hv : v = (if 3 < n then f 3 else 0) ++ ((if 2 < n then f 2 else 0) ++ ((if 1 < n then f 1 else 0)
      ++ (if 0 < n then f 0 else 0)))) : bytesFrom f n v := by
  intro k hk
  rw [hv]
  exact bits_fourBytes (fun k => if k < n then f k else 0) k hk

theorem readLong_bytes : bytesFrom (fun k => m.byte (a.toNat / 4 * 4 + k)) 4 (m.readLong a) :=
  bytesFrom_append _ rfl

theorem readWord_bytes : bytesFrom (fun k => m.byte (a.toNat / 2 * 2 + k)) 2 (m.readWord a) := by
  refine bytesFrom_append _ ?_
  show (m.word (a.toNat / 2 * 2)).setWidth 32 = (0#8 ++ (0#8 ++ (m.byte (a.toNat / 2 * 2 + 1) ++ m.byte (a.toNat / 2 * 2))))
  apply BitVec.eq_of_toNat_eq
  rw [Memory.word, BitVec.toNat_setWidth]
  simp only [toNat_append_eq, BitVec.toNat_ofNat]
  omega

theorem readByte_bytes : bytesFrom (fun k => m.byte (a.toNat / 1 * 1 + k)) 1 (m.readByte a) := by
  refine bytesFrom_append _ ?_
  show (m.byte a.toNat).setWidth 32 = (0#8 ++ (0#8 ++ (0#8 ++ m.byte (a.toNat / 1 * 1))))
  apply BitVec.eq_of_toNat_eq
  rw [BitVec.toNat_setWidth, Nat.div_one, Nat.mul_one]
  simp only [toNat_append_eq, BitVec.toNat_ofNat]
  omega

end

/-! ### Reads -/

section
variable {s t : State} {o : Operands}

theorem State.noAugs_of {go : Out} {b : Bool} (h : b = true → t.task.augs = none) : t.noAugs b go = go := by
  cases b with
  | true => exact State.noAugs_eq true (h rfl)
  | false => rfl

theorem State.noAugd_of {go : Out} {b : Bool} (h : b = true → t.task.augd = none) : t.noAugd b go = go := by
  cases b with
  | true => exact State.noAugd_eq true (h rfl)
  | false => rfl

/-- An instruction that is its meaning in the hub cycle. -/
theorem Out.inHubCycle_of_atHub {out : Out} {go : State → Out} {acts : Prop} (he : out = t.atHub o go)
    (h : out = go t → acts) : Out.inHubCycle out t o acts := by
  subst he
  exact State.atHub_inHubCycle fun hw => h (State.atHub_eq hw)

theorem hubRead_stage4 {f : Dual} {n : Nat} {read : Memory → HubAddr → Word}
    (h : s.stage4 f.cond (.reg f.d) (hubS f.i f.s) o t) (ha : f.i = true → t.task.augs = none) :
    s.hubRead f n read = t.atHub o fun s2 =>
      s2.putRead (s2.cog.hubUse f.i o.sv n).cog o f (read s2.hub.mem (s2.cog.hubUse f.i o.sv n).addr) 2 :=
  (State.withOperands_stage4 h).trans (State.noAugs_of ha)

theorem putRead_delivers (t : State) (c : Cog) (o : Operands) (f : Dual) (v : Word) (stall : Nat) :
    ∃ b, Out.delivers (t.putRead c o f v stall) o.d
      (t.ends ((c.setFlags f.wz f.wc (decide (v = 0)) b).writeReg o.d v) stall) :=
  ⟨_, State.finishD_delivers _ _ _ _ _⟩

theorem hubRead_inHubCycle {f : Dual} {n : Nat} {read : Memory → HubAddr → Word} {i : Instr} {bytes : Word → Prop}
    (h : s.stage4 f.cond (.reg f.d) (hubS f.i f.s) o t) (ha : f.i = true → t.task.augs = none)
    (he : exec i s = s.hubRead f n read) (hb : bytes (read t.hub.mem (t.cog.hubUse f.i o.sv n).addr)) :
    Out.inHubCycle (exec i s) t o (∃ v b, bytes v ∧ Out.delivers (exec i s) o.d
      (t.ends (((t.cog.hubUse f.i o.sv n).cog.setFlags f.wz f.wc (decide (v = 0)) b).writeReg o.d v) 2)) :=
  Out.inHubCycle_of_atHub (he.trans (hubRead_stage4 h ha)) fun hgo => by
    obtain ⟨b, hd⟩ := putRead_delivers t (t.cog.hubUse f.i o.sv n).cog o f
      (read t.hub.mem (t.cog.hubUse f.i o.sv n).addr) 2
    exact ⟨_, b, hb, hgo ▸ hd⟩

/-- The pointer expressions of POPA and POPB: four down, then used (R241). -/
theorem Cog.pointer_pop (c : Cog) (b : Bool) : c.hubUse true (if b then 0x1BF else 0x0BF) 4
    = ⟨(if b then c.ptrb else c.ptra) - 4,
        if b then { c with ptrb := c.ptrb - 4 } else { c with ptra := c.ptra - 4 }⟩ := by
  cases b with
  | true =>
    have hm : (bits (0x1BF : RegAddr) 0 6).signExtend 18 * BitVec.ofNat 18 4 = -4 := by decide
    refine (Cog.hubUse_expr c 0x1BF 4).trans ?_
    rw [Cog.pointer, hm, ← sub_eq_add_neg]
    rfl
  | false =>
    have hm : (bits (0x0BF : RegAddr) 0 6).signExtend 18 * BitVec.ofNat 18 4 = -4 := by decide
    refine (Cog.hubUse_expr c 0x0BF 4).trans ?_
    rw [Cog.pointer, hm, ← sub_eq_add_neg]
    rfl

/-- Those of PUSHA and PUSHB: used, then four up (R241). -/
theorem Cog.pointer_push (c : Cog) (b : Bool) : c.hubUse true (if b then 0x1C1 else 0x0C1) 4
    = ⟨if b then c.ptrb else c.ptra, if b then { c with ptrb := c.ptrb + 4 } else { c with ptra := c.ptra + 4 }⟩ := by
  cases b with
  | true => exact (Cog.hubUse_expr c 0x1C1 4).trans rfl
  | false => exact (Cog.hubUse_expr c 0x0C1 4).trans rfl

/-- Settles O21. -/
theorem hubReadResults : Obligations.HubReadResults := by
  refine ⟨fun s t f o h ha => ?_, fun s t f o b h ha hsv => ?_⟩
  · simp only [List.forall_mem_cons]
    exact ⟨hubRead_inHubCycle h ha (exec_rdbyte s f) (readByte_bytes _ _),
      hubRead_inHubCycle h ha (exec_rdword s f) (readWord_bytes _ _),
      hubRead_inHubCycle h ha (exec_rdlong s f) (readLong_bytes _ _), List.forall_mem_nil _⟩
  · have pop {i : Instr} (he : exec i s = s.hubRead ⟨f.wz, f.wc, true, f.cond, f.d, if b then 0x1BF else 0x0BF⟩ 4
        Memory.readLong) :=
      hubRead_inHubCycle (f := ⟨f.wz, f.wc, true, f.cond, f.d, if b then 0x1BF else 0x0BF⟩) h (fun _ => ha) he
        (readLong_bytes t.hub.mem _)
    rw [hsv, Cog.pointer_pop] at pop
    cases b with
    | true => exact pop (exec_popb s f)
    | false => exact pop (exec_popa s f)

end

/-! ### Cached reads -/

theorem Memory.wide_get (m : Memory) (a : Nat) (k : Fin 8) : (m.wide a).get k = m.long (a + 4 * k.val) := by
  fin_cases k <;> rfl

/-- A long of the line that a wide of memory fills. -/
theorem lineLong_wide (m : Memory) (a : HubAddr) : lineLong (m.wide (alignWide a)) a = m.readLong a := by
  rw [lineLong, Memory.wide_get, Memory.readLong, alignWide, alignLong]
  congr 1
  simp only [BitVec.val_toFin, BitVec.extractLsb'_toNat, Nat.shiftRight_eq_div_pow]
  omega

/-- Byte `k` of the field that a cached read takes from a long is one of its four bytes. -/
theorem bits_bits {lo n lo' n' : Nat} (v : Word) (h : lo' + n' ≤ n) : bits (bits v lo n) lo' n' = bits v (lo + lo') n' := by
  refine eq_of_getLsbD_lt fun k hk => ?_
  rw [getLsbD_bits _ hk, getLsbD_bits _ (by omega), getLsbD_bits _ hk, Nat.add_assoc]

theorem bits_setWidth_low {n lo l : Nat} (x : BitVec n) (h : lo + l ≤ n) (hn : n ≤ 32) :
    bits (x.setWidth 32) lo l = bits x lo l := by
  refine eq_of_getLsbD_lt fun k hk => ?_
  rw [getLsbD_bits _ hk, getLsbD_bits _ hk, BitVec.getLsbD_setWidth]
  simp [show lo + k < 32 by omega]

theorem bits_setWidth_high {n lo l : Nat} (x : BitVec n) (h : n ≤ lo) : bits (x.setWidth 32) lo l = 0 := by
  refine eq_of_getLsbD_lt fun k hk => ?_
  rw [getLsbD_bits _ hk, BitVec.getLsbD_setWidth, BitVec.getLsbD_of_ge x _ (by omega)]
  simp

/-- The bytes of a zero-extended field of a long, at a multiple of its own size. -/
theorem field_bytes (v : Word) {n : Nat} (q : Nat) (hn : n ≤ 4) :
    bytesFrom (fun k => bits v (8 * (q + k)) 8) n ((bits v (8 * q) (8 * n)).setWidth 32) := by
  intro k hk
  split_ifs with hkn
  · rw [bits_setWidth_low _ (by omega) (by omega), bits_bits _ (by omega), ← Nat.mul_add]
  · exact bits_setWidth_high _ (by omega)

theorem bytesFrom_congr {f g : Nat → Byte} {n : Nat} {v : Word} (h : bytesFrom f n v) (hfg : ∀ k < n, f k = g k) :
    bytesFrom g n v := by
  intro k hk
  rw [h k hk]
  split_ifs with hkn
  · rw [hfg k hkn]
  · rfl

section
variable (w : Octet Word) (a : HubAddr)

theorem lineByte_bytes : bytesFrom (fun k => bits (w.get (bits a 2 3).toFin) (8 * ((a.toNat / 1 * 1 + k) % 4)) 8) 1
    (lineByte w a) := by
  refine bytesFrom_congr (field_bytes (lineLong w a) (bits a 0 2).toNat (by decide)) fun k hk => ?_
  have : (bits a 0 2).toNat + k = (a.toNat / 1 * 1 + k) % 4 := by
    simp only [BitVec.extractLsb'_toNat, Nat.shiftRight_zero]
    omega
  rw [this]
  rfl

theorem lineWord_bytes : bytesFrom (fun k => bits (w.get (bits a 2 3).toFin) (8 * ((a.toNat / 2 * 2 + k) % 4)) 8) 2
    (lineWord w a) := by
  have hq : 16 * (bits a 1 1).toNat = 8 * (2 * (bits a 1 1).toNat) := by omega
  rw [lineWord, hq]
  refine bytesFrom_congr (field_bytes (lineLong w a) (2 * (bits a 1 1).toNat) (by decide)) fun k hk => ?_
  have : 2 * (bits a 1 1).toNat + k = (a.toNat / 2 * 2 + k) % 4 := by
    simp only [BitVec.extractLsb'_toNat, Nat.shiftRight_eq_div_pow]
    omega
  rw [this]
  rfl

theorem lineLong_bytes : bytesFrom (fun k => bits (w.get (bits a 2 3).toFin) (8 * ((a.toNat / 4 * 4 + k) % 4)) 8) 4
    (lineLong w a) := by
  have h := field_bytes (lineLong w a) (n := 4) 0 (by decide)
  rw [bits_all (lineLong w a), BitVec.setWidth_eq] at h
  refine bytesFrom_congr h fun k hk => ?_
  rw [show (a.toNat / 4 * 4 + k) % 4 = 0 + k by omega]
  rfl

variable (m : Memory)

/-- The line that a wide of memory fills holds its bytes. -/
theorem wide_bytes {j : Nat} (h : j / 4 = a.toNat / 4) :
    bits ((m.wide (alignWide a)).get (bits a 2 3).toFin) (8 * (j % 4)) 8 = m.byte j := by
  have hl : (m.wide (alignWide a)).get (bits a 2 3).toFin = m.readLong a := lineLong_wide m a
  have hj : j % 4 < 4 := Nat.mod_lt _ (by decide)
  have he : a.toNat / 4 * 4 + j % 4 = j := by omega
  rw [hl, readLong_bytes m a _ hj, if_pos hj]
  exact congrArg m.byte he

theorem lineByte_wide : bytesFrom (fun k => m.byte (a.toNat / 1 * 1 + k)) 1 (lineByte (m.wide (alignWide a)) a) :=
  bytesFrom_congr (lineByte_bytes _ a) fun _ hk => wide_bytes a m (by omega)

theorem lineWord_wide : bytesFrom (fun k => m.byte (a.toNat / 2 * 2 + k)) 2 (lineWord (m.wide (alignWide a)) a) :=
  bytesFrom_congr (lineWord_bytes _ a) fun _ hk => wide_bytes a m (by omega)

theorem lineLong_bytes_wide : bytesFrom (fun k => m.byte (a.toNat / 4 * 4 + k)) 4 (lineLong (m.wide (alignWide a)) a) :=
  bytesFrom_congr (lineLong_bytes _ a) fun _ hk => wide_bytes a m (by omega)
end

section
variable {s t : State} {o : Operands}

theorem hubReadC_stage4 {f : Dual} {n : Nat} {pick : Octet Word → HubAddr → Word}
    (h : s.stage4 f.cond (.reg f.d) (hubS f.i f.s) o t) (ha : f.i = true → t.task.augs = none) :
    s.hubReadC f n pick =
      let u := t.cog.hubUse f.i o.sv n
      if t.cog.wide.holds u.addr then t.putRead u.cog o f (pick u.cog.wide.regs u.addr) 0
      else t.atHub o fun s2 =>
        s2.putRead (u.cog.reload s2.hub.mem u.addr) o f (pick (u.cog.reload s2.hub.mem u.addr).wide.regs u.addr) 2 :=
  (State.withOperands_stage4 h).trans (State.noAugs_of ha)

theorem Cog.wide_hubUse (c : Cog) (expr : Bool) (v : Word) (n : Nat) : (c.hubUse expr v n).cog.wide = c.wide := by
  unfold Cog.hubUse Cog.pointer
  dsimp only
  split_ifs <;> rfl

/-- A cached read: on a hit the bytes `hit` of the line, on a miss the bytes `miss` of memory. -/
theorem hubReadC_spec {f : Dual} {n : Nat} {pick : Octet Word → HubAddr → Word} {i : Instr} {hit miss : Nat → Byte}
    (h : s.stage4 f.cond (.reg f.d) (hubS f.i f.s) o t) (ha : f.i = true → t.task.augs = none)
    (he : exec i s = s.hubReadC f n pick)
    (hhit : bytesFrom hit n (pick t.cog.wide.regs (t.cog.hubUse f.i o.sv n).addr))
    (hmiss : bytesFrom miss n (pick (t.hub.mem.wide (alignWide (t.cog.hubUse f.i o.sv n).addr))
      (t.cog.hubUse f.i o.sv n).addr)) :
    let u := t.cog.hubUse f.i o.sv n
    let writes (c1 : Cog) (byteOf : Nat → Byte) (stall : Nat) : Prop :=
      ∃ v c, bytesFrom byteOf n v
        ∧ Out.delivers (exec i s) o.d (t.ends ((c1.setFlags f.wz f.wc (decide (v = 0)) c).writeReg o.d v) stall)
    (t.cog.wide.holds u.addr = true → writes u.cog hit 0)
      ∧ (t.cog.wide.holds u.addr = false →
          Out.inHubCycle (exec i s) t o (writes (u.cog.reload t.hub.mem u.addr) miss 2)) := by
  intro u writes
  rw [hubReadC_stage4 h ha] at he
  refine ⟨fun hh => ?_, fun hh => ?_⟩
  · obtain ⟨b, hd⟩ := putRead_delivers t u.cog o f (pick u.cog.wide.regs u.addr) 0
    have hx : exec i s = t.putRead u.cog o f (pick u.cog.wide.regs u.addr) 0 := he.trans (if_pos hh)
    exact ⟨_, b, by rw [Cog.wide_hubUse]; exact hhit, hx ▸ hd⟩
  · refine Out.inHubCycle_of_atHub (he.trans (if_neg (by rw [hh]; decide))) fun hgo => ?_
    obtain ⟨b, hd⟩ := putRead_delivers t (u.cog.reload t.hub.mem u.addr) o f
      (pick (u.cog.reload t.hub.mem u.addr).wide.regs u.addr) 2
    exact ⟨_, b, hmiss, hgo ▸ hd⟩

/-- Settles O22. -/
theorem cachedReadResults : Obligations.CachedReadResults := by
  intro s t f o h ha
  simp only [List.forall_mem_cons]
  exact ⟨hubReadC_spec h ha (exec_rdbytec s f) (lineByte_bytes _ _) (lineByte_wide _ _),
    hubReadC_spec h ha (exec_rdwordc s f) (lineWord_bytes _ _) (lineWord_wide _ _),
    hubReadC_spec h ha (exec_rdlongc s f) (lineLong_bytes _ _) (lineLong_bytes_wide _ _), List.forall_mem_nil _⟩

end

end Sys2Proof.Machine
end

section
/-!
PROOFS. Hub memory: writes, wide transfers, window and cache control, and the instructions on the pointers.
-/

set_option Elab.async false

namespace Sys2Proof.Machine

open Sys2Proof

/-! ### Stores -/

/-- Memory `n` is `m` with the low bytes of a word stored at an aligned address; in the ROM nothing changes (R123, D17). -/
structure Memory.Stored (m n : Memory) (a size : Nat) (v : Word) : Prop where
  bytes : 0x00E00 ≤ a → ∀ k < size, n.byte (a + k) = bits v (8 * k) 8
  others : ∀ b, ¬(0x00E00 ≤ a ∧ a ≤ b ∧ b < a + size) → n.byte b = m.byte b

section
variable (m : Memory) (a : HubAddr) (v : Word)

theorem Memory.stored_setByte : m.Stored (m.setByte a.toNat (bits v 0 8)) (a.toNat / 1 * 1) 1 v := by
  have ha := a.isLt
  rw [show a.toNat / 1 * 1 = a.toNat by omega]
  refine ⟨fun hl k hk => ?_, fun b hb => ?_⟩
  · obtain rfl : k = 0 := by omega
    exact Memory.byte_setByte_same m _ hl ha
  · by_cases hl : a.toNat < ramBase
    · rw [Memory.setByte_outside m _ (.inl hl)]
    · refine Memory.byte_setByte_ne m _ fun e => hb ⟨Nat.not_lt.mp hl, by omega⟩

/-- A word written to the ROM is lost (D17). -/
theorem Memory.setWord_rom {b : Nat} (v : BitVec 16) (h : b + 2 ≤ ramBase) : m.setWord b v = m := by
  unfold Memory.setWord
  rw [Memory.setByte_outside m _ (by omega), Memory.setByte_outside m _ (by omega)]

theorem Memory.byte_setWord {b : Nat} (v : BitVec 16) (hl : ramBase ≤ b) (hh : b + 2 ≤ hubSize) {k : Nat} (hk : k < 2) :
    (m.setWord b v).byte (b + k) = bits v (8 * k) 8 := by
  unfold Memory.setWord
  rcases k with _ | _ | k
  · rw [Memory.byte_setByte_ne _ _ (by omega)]
    exact Memory.byte_setByte_same _ _ (by omega) (by omega)
  · exact Memory.byte_setByte_same _ _ (by omega) (by omega)
  · omega

theorem Memory.stored_setWord : m.Stored (m.setWord (alignWord a) (bits v 0 16)) (a.toNat / 2 * 2) 2 v := by
  have ha := a.isLt
  have hrom : a.toNat / 2 * 2 < ramBase → a.toNat / 2 * 2 + 2 ≤ ramBase := by unfold ramBase; omega
  have hram : a.toNat / 2 * 2 + 2 ≤ hubSize := by unfold hubSize; omega
  refine ⟨fun hl k hk => ?_, fun b hb => ?_⟩
  · rw [alignWord, Memory.byte_setWord m _ hl hram hk, bits_bits _ (by omega), Nat.zero_add]
  · by_cases hl : a.toNat / 2 * 2 < ramBase
    · rw [alignWord, Memory.setWord_rom m _ (hrom hl)]
    · exact Memory.byte_setWord_ne m _ (by have := Nat.not_lt.mp hl; unfold alignWord; unfold ramBase at this; omega)

theorem Memory.stored_setLong : m.Stored (m.setLong (alignLong a) v) (a.toNat / 4 * 4) 4 v := by
  have hb := alignLong_bounds a
  refine ⟨fun hl k hk => ?_, fun b hne => ?_⟩
  · obtain h | ⟨h1, h2⟩ := hb
    · unfold alignLong ramBase at h; omega
    · exact Memory.byte_setLong m v h1 h2 hk
  · obtain h | ⟨h1, h2⟩ := hb
    · rw [Memory.setLong_rom m v h]
    · exact Memory.byte_setLong_ne m v (by unfold alignLong at h1 ⊢; unfold ramBase at h1; omega)

end

section
variable {s t : State} {o : Operands} {stores : Nat → Prop} {writes : RegAddr → Prop} {pushes : Byte → Prop} {wz wc : Bool}

/-- The state in which an instruction acts on its operands. -/
theorem State.stage4.framed {cond : BitVec 4} {du : DUse} {su : SUse} (h : s.stage4 cond du su o t) :
    s.framed t stores writes pushes wz wc := by
  obtain ⟨-, -, rfl⟩ | ⟨w, -, -, rfl⟩ := h
  · exact .opened s cond du su
  · exact .refl _ _ _ _ _ _

theorem Cog.framed.hubUse (c : Cog) (expr : Bool) (v : Word) (n : Nat) :
    c.framed (c.hubUse expr v n).cog writes pushes wz wc := by
  unfold Cog.hubUse Cog.pointer
  dsimp only
  split_ifs <;> exact .of_same rfl rfl rfl rfl rfl rfl

/-- A hub write changes memory and the history only. -/
structure Hub.Stored (h k : Hub) (a size : Nat) (v : Word) : Prop where
  stored : h.mem.Stored k.mem a size v
  cnt : k.cnt = h.cnt
  clk : k.clk = h.clk
  lockState : k.lockState = h.lockState
  lockTaken : k.lockTaken = h.lockTaken

theorem Hub.stored_writeByte (h : Hub) (a : HubAddr) (v : Word) :
    h.Stored (h.writeByte a (bits v 0 8)) (a.toNat / 1 * 1) 1 v := ⟨h.mem.stored_setByte a v, rfl, rfl, rfl, rfl⟩
theorem Hub.stored_writeWord (h : Hub) (a : HubAddr) (v : Word) :
    h.Stored (h.writeWord a (bits v 0 16)) (a.toNat / 2 * 2) 2 v := ⟨h.mem.stored_setWord a v, rfl, rfl, rfl, rfl⟩
theorem Hub.stored_writeLong (h : Hub) (a : HubAddr) (v : Word) :
    h.Stored (h.writeLong a v) (a.toNat / 4 * 4) 4 v := ⟨h.mem.stored_setLong a v, rfl, rfl, rfl, rfl⟩

theorem State.framed.store {u : State} (h : s.framed u stores writes pushes wz wc) {k : Hub} {a size : Nat} {v : Word}
    (hw : u.hub.Stored k a size v) (hs : ∀ b, 0x00E00 ≤ a ∧ a ≤ b ∧ b < a + size → stores b) :
    s.framed { u with hub := k } stores writes pushes wz wc :=
  h.withHub (fun b hb => hw.stored.others b fun hin => hb (hs b hin)) hw.cnt hw.clk hw.lockState hw.lockTaken

theorem hubWrite_stage4 {f : DualL} {n : Nat} {write : Hub → HubAddr → Word → Hub}
    (h : s.stage4 f.cond (dl f.l f.d) (hubS f.i f.s) o t) (ha : f.i = true → t.task.augs = none) :
    s.hubWrite f n write = t.atHub o fun s2 =>
      { s2 with hub := write s2.hub (s2.cog.hubUse f.i o.sv n).addr o.dv }.finish (s2.cog.hubUse f.i o.sv n).cog :=
  (State.withOperands_stage4 h).trans (State.noAugs_of ha)

/-- The store of a hub write: its bytes, and the frame of the step. -/
theorem hubWrite_inHubCycle {f : DualL} {n : Nat} {write : Hub → HubAddr → Word → Hub} {i : Instr} {a : Nat}
    (h : s.stage4 f.cond (dl f.l f.d) (hubS f.i f.s) o t) (ha : f.i = true → t.task.augs = none)
    (he : exec i s = s.hubWrite f n write)
    (hw : t.hub.Stored (write t.hub (t.cog.hubUse f.i o.sv n).addr o.dv) a n o.dv) :
    let c := (t.cog.hubUse f.i o.sv n).cog
    Out.inHubCycle (exec i s) t o (∃ k, exec i s = .next ({ t with hub := k }.ends c 0)
      ∧ (0x00E00 ≤ a → ∀ j < n, ({ t with hub := k }.ends c 0).hub.mem.byte (a + j) = bits o.dv (8 * j) 8)
      ∧ s.frame ({ t with hub := k }.ends c 0) (fun b => 0x00E00 ≤ a ∧ a ≤ b ∧ b < a + n) nowhere nowhere false false) := by
  intro c
  refine Out.inHubCycle_of_atHub (he.trans (hubWrite_stage4 h ha)) fun hgo => ⟨_, hgo, hw.stored.bytes, ?_⟩
  exact (h.framed.store hw fun b hb => hb).ends (.hubUse _ _ _ _) 0

/-- Settles O23. -/
theorem hubWriteResults : Obligations.HubWriteResults := by
  refine ⟨fun s t f o h ha => ?_, fun s t f o b h ha hsv => ?_⟩
  · simp only [List.forall_mem_cons]
    exact ⟨hubWrite_inHubCycle h ha (exec_wrbyte s f) (Hub.stored_writeByte _ _ _),
      hubWrite_inHubCycle h ha (exec_wrword s f) (Hub.stored_writeWord _ _ _),
      hubWrite_inHubCycle h ha (exec_wrlong s f) (Hub.stored_writeLong _ _ _), List.forall_mem_nil _⟩
  · have push {i : Instr} (he : exec i s = s.hubWrite ⟨f.l, true, f.cond, f.d, if b then 0x1C1 else 0x0C1⟩ 4
        fun h a v => h.writeLong a v) :=
      hubWrite_inHubCycle (f := ⟨f.l, true, f.cond, f.d, if b then 0x1C1 else 0x0C1⟩) h (fun _ => ha) he
        (Hub.stored_writeLong t.hub _ o.dv)
    rw [hsv, Cog.pointer_push] at push
    cases b with
    | true => exact push (exec_pushb s f)
    | false => exact push (exec_pusha s f)

end

/-! ### Wide transfers -/

section
variable (m : Memory) (w : Octet Word)

theorem Memory.long_setWide {a : Nat} (hl : ramBase ≤ a) (hh : a + 32 ≤ hubSize) (k : Fin 8) :
    (m.setWide a w).long (a + 4 * k.val) = w.get k := by
  unfold Memory.setWide
  rcases k with ⟨k, hk⟩
  interval_cases k <;> dsimp only [Octet.get] <;>
    simp (disch := omega) only [Memory.long_setLong_ne, Memory.long_setLong_same, Nat.mul_zero, Nat.add_zero]

theorem Memory.setWide_rom {a : Nat} (h : a + 32 ≤ ramBase) : m.setWide a w = m := by
  unfold Memory.setWide
  iterate 8 rw [Memory.setLong_rom _ _ (by omega)]

/-- A wide store changes its 32 bytes only, and none in the ROM. -/
theorem Memory.byte_setWide_others (a : HubAddr) {b : Nat}
    (hb : b < a.toNat / 32 * 32 ∨ a.toNat / 32 * 32 + 32 ≤ b ∨ a.toNat / 32 * 32 < 0x00E00) :
    (m.setWide (alignWide a) w).byte b = m.byte b := by
  rw [alignWide]
  by_cases hrom : a.toNat / 32 * 32 < 0x00E00
  · rw [Memory.setWide_rom _ _ (by unfold ramBase; omega)]
  · exact Memory.byte_setWide_ne _ _ (by omega)

end

section
variable {s t : State} {o : Operands} {f : SingleL}

theorem wideOp_stage4 {body : HubUse → Operands → State → Out} (h : s.stage4 f.cond (hubD f.l f.d) (.raw 0) o t)
    (ha : f.l = true → t.task.augd = none) : s.wideOp f body = body (t.cog.hubUse f.l o.dv 32) o t :=
  (State.withOperands_stage4 h).trans (State.noAugd_of ha)

/-- Settles O24. -/
theorem wideTransferResults : Obligations.WideTransferResults := by
  refine ⟨fun s t f o h ha => ⟨?_, fun hh => ?_, fun hh => ?_, ?_⟩, fun c h a w => ⟨fun k => ?_, rfl, rfl, rfl, rfl, ?_, ?_⟩⟩
  · exact Out.inHubCycle_of_atHub ((exec_rdwide s f).trans (wideOp_stage4 h ha)) id
  · refine Out.inHubCycle_of_atHub ((exec_rdwidec s f).trans ((wideOp_stage4 h ha).trans (if_neg ?_))) id
    rw [Wide.holds, hh]
    decide
  · exact (exec_rdwidec s f).trans ((wideOp_stage4 h ha).trans (if_pos hh))
  · refine Out.inHubCycle_of_atHub ((exec_wrwide s f).trans (wideOp_stage4 h ha)) fun hgo => ?_
    rw [Cog.wide_hubUse] at hgo
    exact hgo
  · exact Memory.wide_get _ _ k
  · intro hl k
    have ha := a.isLt
    exact Memory.long_setWide h.mem w hl (by unfold hubSize; omega) k
  · intro b hb
    rw [Hub.writeWide_mem]
    exact Memory.byte_setWide_others _ _ a hb

end

/-! ### Window, caches and pointers -/

section
variable {s t : State} {o : Operands}

theorem configL_stage4 {f : SingleL} {g : Word → Cog → Cog} (h : s.stage4 f.cond (dl f.l f.d) (.raw 0) o t) :
    s.configL f g = .next (t.ends (g o.dv t.cog) 0) := State.withOperands_stage4 h

theorem configLS_stage4 {f : DualL} {g : Word → Word → Cog → Cog} (h : s.stage4 f.cond (dl f.l f.d) (si f.i f.s) o t) :
    s.configLS f g = .next (t.ends (g o.dv o.sv t.cog) 0) := State.withOperands_stage4 h

theorem config0_stage4 {f : Zero0} {g : Cog → Cog} (h : s.stage4 f.cond (.raw 0) (.raw 0) o t) :
    s.config0 f g = .next (t.ends (g t.cog) 0) := State.conditional_stage4 h

theorem windowOverPorts_iff (v : Word) : windowOverPorts v = true ↔ bits v 0 9 = 0x1F0 ∨ bits v 0 9 = 0x1F8 := by
  rw [windowOverPorts, Bool.or_eq_true, beq_iff_eq, beq_iff_eq]
  rfl

theorem moveWindow_moves {f : SingleL} {clear : Wide → Wide} (h : s.stage4 f.cond (dl f.l f.d) (.raw 0) o t)
    (hp : ¬(bits o.dv 0 9 = 0x1F0 ∨ bits o.dv 0 9 = 0x1F8)) :
    s.moveWindow f clear = .next (t.ends ({ t.cog with wide := clear t.cog.wide }.setWindow o.dv) 0) :=
  (State.withOperands_stage4 h).trans (if_neg fun hw => hp ((windowOverPorts_iff _).mp hw))

theorem moveWindow_refused {f : SingleL} {clear : Wide → Wide} (h : s.stage4 f.cond (dl f.l f.d) (.raw 0) o t)
    (hp : bits o.dv 0 9 = 0x1F0 ∨ bits o.dv 0 9 = 0x1F8) : s.moveWindow f clear = .refused .wideWindow :=
  (State.withOperands_stage4 h).trans (if_pos ((windowOverPorts_iff _).mpr hp))

theorem Quad.get_mapIdx {α β : Type} (q : Quad α) (f : Fin 4 → α → β) (k : Fin 4) : (q.mapIdx f).get k = f k (q.get k) := by
  fin_cases k <;> rfl

/-- Settles O25. -/
theorem cacheAndWindowControl : Obligations.CacheAndWindowControl := by
  refine ⟨⟨fun s t f o h => ⟨fun hp => ⟨?_, ?_⟩, fun hp => ⟨?_, ?_⟩⟩, fun s t f o h => ?_⟩, fun s t f o h => ⟨?_, ?_, ?_⟩⟩
  · exact (exec_setwide s f).trans (moveWindow_moves h hp)
  · refine (exec_setwidz s f).trans ((moveWindow_moves h hp).trans ?_)
    rw [Wide.cleared, Cog.setWindow]
    cases t.cog.wide.olds <;> rfl
  · exact (exec_setwide s f).trans (moveWindow_refused h hp)
  · exact (exec_setwidz s f).trans (moveWindow_refused h hp)
  · exact (exec_dcachex s f).trans (config0_stage4 h)
  · exact ⟨_, (exec_icachex s f).trans (State.conditional_stage4 h), fun k => by rw [Quad.get_mapIdx], rfl⟩
  · exact (exec_icachep s f).trans (config0_stage4 h)
  · exact (exec_icachen s f).trans (config0_stage4 h)

theorem readInto_stage4 {f : SingleZC} {value : State → Word} {after : Cog → Cog}
    (h : s.stage4 f.cond (.reg f.d) (.raw 0) o t) :
    s.readInto f value after = t.finishD ((after t.cog).setFlags f.wz f.wc (zOf (value t)) (Config.freeBit t.turn 2)) o.d
      (value t) := State.withOperands_stage4 h

theorem DResult.holds.readInto {g : DResult} {f : SingleZC} {value : State → Word}
    (h : s.stage4 f.cond (.reg f.d) (.raw 0) o t) (he : exec g.i s = s.readInto f value id) (hs : g.stall = 0)
    (hr : g.r (value t)) (hz : g.z (value t) (zOf (value t))) (hc : ∀ b, g.c b) : g.holds s t o.d f.wz f.wc :=
  ⟨_, _, _, hr, hz, hc _, by rw [he, readInto_stage4 h, hs]; exact State.finishD_delivers _ _ _ _ _⟩

/-- Four times an instruction address (R507). -/
theorem hubOfInstr_bits (p : Addr) : bits (hubOfInstr p) 0 18 = p.setWidth 18 <<< 2 := by
  refine eq_of_getLsbD_lt fun k hk => ?_
  rw [getLsbD_bits _ hk, Nat.zero_add, hubOfInstr, BitVec.getLsbD_shiftLeft, BitVec.getLsbD_shiftLeft,
    BitVec.getLsbD_setWidth, BitVec.getLsbD_setWidth]
  simp only [hk, show k < 32 by omega, show k - 2 < 32 by omega, show k - 2 < 18 by omega, decide_true, Bool.true_and]

theorem locPtr_stage4 {f : Big} {rel : Bool} {put : HubAddr → Cog → Cog} (h : s.stage4 f.cond (.raw 0) (.raw 0) o t)
    (ha : t.task.augs = none) :
    s.locPtr f rel put = .next (t.ends (put ((t.bigTarget f.n rel).setWidth 18 <<< 2) t.cog) 0) := by
  rw [← hubOfInstr_bits]
  exact (State.conditional_stage4 h).trans (State.noAugs_eq true ha)

theorem State.auxFree_eq {go : Out} (h : t.cog.xfr.usesAux = false) : t.auxFree go = go := by simp [State.auxFree, h]
theorem State.auxFree_busy {go : Out} (h : t.cog.xfr.usesAux = true) : t.auxFree go = .refused .auxBusy := by
  simp [State.auxFree, h]

theorem writePtry_stage4 {f : SingleL} {g : Byte → Byte → Byte} (h : s.stage4 f.cond (dl f.l f.d) (.raw 0) o t) :
    (t.cog.xfr.usesAux = false →
        s.writePtry f g = .next (t.ends { t.cog with ptry := g t.cog.ptry (bits o.dv 0 8) } 0))
      ∧ (t.cog.xfr.usesAux = true → s.writePtry f g = .refused .auxBusy) :=
  ⟨fun hx => (State.withOperands_stage4 h).trans (State.auxFree_eq hx),
    fun hx => (State.withOperands_stage4 h).trans (State.auxFree_busy hx)⟩

/-- Settles O26. -/
theorem pointerInstructions : Obligations.PointerInstructions := by
  refine ⟨⟨fun s t f o h => ?_, fun s t f o h => ?_, fun s t f o h ha => ?_⟩, fun s t f o h => ⟨?_, ?_⟩⟩ <;>
    simp only [List.forall_mem_cons]
  · exact ⟨.readInto h (exec_getptra s f) rfl rfl (zOf_eq_decide _) fun _ => trivial,
      .readInto h (exec_getptrb s f) rfl rfl (zOf_eq_decide _) fun _ => trivial, List.forall_mem_nil _⟩
  · exact ⟨(exec_setptra s f).trans (configL_stage4 h), (exec_setptrb s f).trans (configL_stage4 h),
      (exec_addptra s f).trans (configL_stage4 h), (exec_addptrb s f).trans (configL_stage4 h),
      (exec_subptra s f).trans (configL_stage4 h), (exec_subptrb s f).trans (configL_stage4 h), List.forall_mem_nil _⟩
  · exact ⟨(exec_locptraAbs s f).trans (locPtr_stage4 h ha), (exec_locptraRel s f).trans (locPtr_stage4 h ha),
      (exec_locptrbAbs s f).trans (locPtr_stage4 h ha), (exec_locptrbRel s f).trans (locPtr_stage4 h ha),
      List.forall_mem_nil _⟩
  · exact ⟨(exec_setptrx s f).trans (configL_stage4 h), (exec_addptrx s f).trans (configL_stage4 h),
      (exec_subptrx s f).trans (configL_stage4 h), List.forall_mem_nil _⟩
  · have y {i : Instr} {g : Byte → Byte → Byte} (he : exec i s = s.writePtry f g) := he ▸ writePtry_stage4 (g := g) h
    exact ⟨y (exec_setptry s f), y (exec_addptry s f), y (exec_subptry s f), List.forall_mem_nil _⟩

end

end Sys2Proof.Machine
end

section
/-!
PROOFS. Starting and stopping cogs, CLKSET and the locks (41_hub_control.md).
-/

set_option Elab.async false

namespace Sys2Proof.Machine

open Sys2Proof

/-! ### Choosing a cog or a lock -/

theorem lowest_eq (q : Octet Bool) : lowest q =
    if q.get 0 = true then some 0 else if q.get 1 = true then some 1 else if q.get 2 = true then some 2
    else if q.get 3 = true then some 3 else if q.get 4 = true then some 4 else if q.get 5 = true then some 5
    else if q.get 6 = true then some 6 else if q.get 7 = true then some 7 else none := rfl

theorem lowest_some {q : Octet Bool} {k : Fin 8} (h : q.get k = true) (hlow : ∀ j, j < k → q.get j = false) :
    lowest q = some k := by
  have g (j : Fin 8) (hj : j < k) : ¬q.get j = true := by rw [hlow j hj]; decide
  rw [lowest_eq]
  match k with
  | 0 => rw [if_pos h]
  | 1 => rw [if_neg (g 0 (by decide)), if_pos h]
  | 2 => rw [if_neg (g 0 (by decide)), if_neg (g 1 (by decide)), if_pos h]
  | 3 => rw [if_neg (g 0 (by decide)), if_neg (g 1 (by decide)), if_neg (g 2 (by decide)), if_pos h]
  | 4 => rw [if_neg (g 0 (by decide)), if_neg (g 1 (by decide)), if_neg (g 2 (by decide)),
      if_neg (g 3 (by decide)), if_pos h]
  | 5 => rw [if_neg (g 0 (by decide)), if_neg (g 1 (by decide)), if_neg (g 2 (by decide)),
      if_neg (g 3 (by decide)), if_neg (g 4 (by decide)), if_pos h]
  | 6 => rw [if_neg (g 0 (by decide)), if_neg (g 1 (by decide)), if_neg (g 2 (by decide)),
      if_neg (g 3 (by decide)), if_neg (g 4 (by decide)), if_neg (g 5 (by decide)), if_pos h]
  | 7 => rw [if_neg (g 0 (by decide)), if_neg (g 1 (by decide)), if_neg (g 2 (by decide)),
      if_neg (g 3 (by decide)), if_neg (g 4 (by decide)), if_neg (g 5 (by decide)), if_neg (g 6 (by decide)),
      if_pos h]

theorem lowest_none {q : Octet Bool} (h : ∀ j, q.get j = false) : lowest q = none := by
  rw [lowest_eq]
  simp only [h, Bool.false_eq_true, if_false]

theorem numberWord_eq (k : Fin 8) : numberWord k = BitVec.ofNat 32 k.val := by fin_cases k <;> rfl

theorem zOf_numberWord (k : Fin 8) : zOf (numberWord k) = decide (k = 0) := by fin_cases k <;> rfl

section
variable {s t : State} {o : Operands} {k : Fin 8}

theorem State.idleCog_some (h : (t.cogs.get k).run = .idle) (hlow : ∀ j, j < k → (t.cogs.get j).run ≠ .idle) :
    t.idleCog = some k :=
  lowest_some ((Octet.get_mapIdx _ _ _).trans (decide_eq_true h)) fun j hj =>
    (Octet.get_mapIdx _ _ _).trans (decide_eq_false (hlow j hj))

theorem State.idleCog_none (h : ∀ j, (t.cogs.get j).run ≠ .idle) : t.idleCog = none :=
  lowest_none fun j => (Octet.get_mapIdx _ _ _).trans (decide_eq_false (h j))

theorem State.freeLock_some (h : t.hub.lockTaken.get k = false) (hlow : ∀ j, j < k → t.hub.lockTaken.get j = true) :
    t.freeLock = some k :=
  lowest_some ((Octet.get_mapIdx _ _ _).trans (by rw [h]; rfl)) fun j hj =>
    (Octet.get_mapIdx _ _ _).trans (by rw [hlow j hj]; rfl)

theorem State.freeLock_none (h : ∀ j, t.hub.lockTaken.get j = true) : t.freeLock = none :=
  lowest_none fun j => (Octet.get_mapIdx _ _ _).trans (by rw [h j]; rfl)

end

/-! ### The image of a started cog -/

theorem isRomCode_eq (a : Nat) : isRomCode a = decide (8 ≤ a ∧ a < 0x00E00) := by
  rw [isRomCode, Bool.decide_and]
  rfl

/-- Masking the low two bits leaves a multiple of four. -/
theorem masked_mod_four (x : HubAddr) : (x &&& 0x3FFFC#18).toNat % 4 = 0 := by
  have h : bits (x &&& 0x3FFFC#18) 0 2 = 0 := by
    refine eq_of_getLsbD_lt fun k hk => ?_
    rw [getLsbD_bits _ hk, BitVec.getLsbD_and]
    interval_cases k <;> simp
  have := congrArg BitVec.toNat h
  simpa using this

theorem alignLong_image (x : HubAddr) {i : Nat} :
    alignLong ((x &&& 0x3FFFC#18) + BitVec.ofNat 18 (4 * i)) = ((x &&& 0x3FFFC#18) + BitVec.ofNat 18 (4 * i)).toNat := by
  have h := masked_mod_four x
  rw [alignLong, BitVec.toNat_add, BitVec.toNat_ofNat]
  omega

/-- Register `i` of an image that begins with register `lo` (R296). -/
theorem loadImage_read (m : Memory) (base : HubAddr) : ∀ (n lo : Nat) {i : Nat}, lo ≤ i → i < lo + n →
    (loadImage m base n lo).read zeroes i = m.long (alignLong (base + BitVec.ofNat 18 (4 * i)))
  | 0, _, _, h1, h2 => by omega
  | n + 1, lo, i, h1, h2 => by
    by_cases hi : lo = i
    · subst hi
      rw [loadImage]
      split_ifs with hv
      · have hbelow := Sparse.find?_below (wfFrom_loadImage m base n (lo + 1)) (Nat.lt_succ_self lo)
        rw [Sparse.read, hbelow, hv]
        rfl
      · rw [Sparse.read, Sparse.find?, if_pos rfl]
        rfl
    · have ih := loadImage_read m base n (lo + 1) (i := i) (by omega) (by omega)
      rw [← ih, loadImage]
      split_ifs with hv
      · rfl
      · rw [Sparse.read, Sparse.find?, if_neg hi]
        rfl

theorem getLsbD_romRegisters (base : HubAddr) : ∀ (n : Nat), n ≤ 512 → ∀ i, (romRegisters base n).getLsbD i
    = (decide (i < n) && isRomCode (alignLong (base + BitVec.ofNat 18 (4 * i))))
  | 0, _, i => by simp [romRegisters]
  | n + 1, hn, i => by
    rw [romRegisters, BitVec.getLsbD_or, getLsbD_romRegisters base n (by omega) i]
    have hbit : (1#512 <<< n).getLsbD i = decide (i = n) := by
      rw [BitVec.getLsbD_shiftLeft, BitVec.getLsbD_one]
      by_cases h : i = n
      · subst h
        simp [show i < 512 by omega]
      · simp [h]
        omega
    by_cases h : i = n
    · subst h
      cases isRomCode (alignLong (base + BitVec.ofNat 18 (4 * i))) <;> simp [hbit]
    · have hlt : decide (i < n + 1) = decide (i < n) := decide_eq_decide.mpr (by omega)
      rw [hlt]
      split_ifs <;> simp [hbit, h]

theorem startCog_registers (s : State) (k : Fin 8) (pgm par : Word) {i : RegAddr} (hi : i.toNat < 0x1F4) :
    let a := ((bits pgm 0 18 &&& 0x3FFFC) + BitVec.ofNat 18 (4 * i.toNat)).toNat
    ((s.startCog k pgm par).cogs.get k).stored i = s.hub.mem.long a
      ∧ ((s.startCog k pgm par).cogs.get k).rom.getLsbD i.toNat = decide (8 ≤ a ∧ a < 0x00E00) := by
  intro a
  have ha : alignLong ((bits pgm 0 18 &&& 0x3FFFC#18) + BitVec.ofNat 18 (4 * i.toNat)) = a := alignLong_image _
  unfold State.startCog
  dsimp only
  rw [Octet.get_set_same]
  refine ⟨?_, ?_⟩
  · rw [Cog.stored, if_pos (by omega)]
    exact (loadImage_read s.hub.mem _ 0x1F4 0 (Nat.zero_le _) (by omega)).trans (congrArg _ ha)
  · refine (getLsbD_romRegisters _ 0x1F4 (by decide) i.toNat).trans ?_
    rw [decide_eq_true hi, ha, isRomCode_eq, Bool.true_and]

/-! ### The hub instructions -/

section
variable {s t : State} {o : Operands}

/-- An instruction whose meaning waits for the hub cycle. -/
theorem inHubCycle_of_withOperands {cond : BitVec 4} {du : DUse} {su : SUse} {body : Operands → State → Out} {i : Instr}
    {go : State → Out} {acts : Prop} (h : s.stage4 cond du su o t) (he : exec i s = s.withOperands cond du su body)
    (hb : body o t = t.atHub o go) (ha : exec i s = go t → acts) : Out.inHubCycle (exec i s) t o acts :=
  Out.inHubCycle_of_atHub (he.trans ((State.withOperands_stage4 h).trans hb)) ha

/-- Settles O27. -/
theorem cogStartResults : Obligations.CogStartResults := by
  refine ⟨⟨fun s t f o h => ?_, fun s t n f o h => ?_⟩, fun s k pgm par i hi => startCog_registers s k pgm par hi⟩
  · refine inHubCycle_of_withOperands h (exec_cognew s f) rfl fun he => ⟨fun k hk hlow => ?_, fun hno => ?_⟩
    · rw [State.idleCog_some hk hlow] at he
      dsimp only at he
      rw [he, numberWord_eq]
      exact State.finishD_delivers _ _ _ _ _
    · rw [State.idleCog_none hno] at he
      dsimp only at he
      rw [he]
      exact ⟨_, State.finishD_delivers _ _ _ _ _⟩
  · exact inHubCycle_of_withOperands h (exec_coginit s n f) rfl fun he =>
      ⟨fun hne => he.trans (if_neg hne), fun heq => he.trans (if_pos heq)⟩

/-- A clock source that is off, as R34 and R300 have it. -/
theorem clockOff_iff (v : Word) : clockOff (bits v 0 9) = true ↔
    bits v 1 1 = 1 ∧ (bits v 2 2 = 0 ∨ (bits v 0 1 = 1 ∧ bits v 4 4 = 0)) := by
  unfold clockOff
  rw [bits_bits v (by decide), bits_bits v (by decide), bits_bits v (by decide)]
  have hs : (bits v 0 2).toNat = (bits v 0 1).toNat + 2 * (bits v 1 1).toNat := by
    simp only [BitVec.extractLsb'_toNat, Nat.shiftRight_eq_div_pow]
    omega
  have h0 := (bits v 0 1).isLt
  have h1 := (bits v 1 1).isLt
  have eq3 : bits v 0 2 = 3 ↔ bits v 1 1 = 1 ∧ bits v 0 1 = 1 := by
    rw [← BitVec.toNat_inj, ← BitVec.toNat_inj, ← BitVec.toNat_inj, hs]
    show _ = 3 ↔ _ = 1 ∧ _ = 1
    omega
  have eq2 : bits v 0 2 = 2 ↔ bits v 1 1 = 1 ∧ ¬bits v 0 1 = 1 := by
    rw [← BitVec.toNat_inj, ← BitVec.toNat_inj, ← BitVec.toNat_inj, hs]
    show _ = 2 ↔ _ = 1 ∧ ¬_ = 1
    omega
  simp only [Nat.zero_add, Bool.or_eq_true, Bool.and_eq_true, beq_iff_eq, eq3, eq2]
  tauto

theorem chipReset_spec (t : State) : t.chipReset.hub.mem = t.hub.mem ∧ t.chipReset.hub.clk = 0
    ∧ t.chipReset.hub.lockTaken = Octet.all false ∧ t.chipReset.hub.lockState = Octet.all false
    ∧ (t.chipReset.cogs.get 0).run = .running ∧ (t.chipReset.cogs.get 0).ptrb = 0x00E00
    ∧ (t.chipReset.cogs.get 0).sched.task = 0
    ∧ ∀ k : Fin 8, (t.chipReset.cogs.get k).aux = (t.cogs.get k).aux ∧ (k ≠ 0 → (t.chipReset.cogs.get k).run = .idle) := by
  refine ⟨rfl, rfl, rfl, rfl, rfl, rfl, rfl, fun k => ?_⟩
  fin_cases k <;> exact ⟨rfl, fun h => by first | rfl | exact absurd rfl h⟩

/-- Settles O28. -/
theorem cogClockAndLockControl : Obligations.CogClockAndLockControl := by
  refine ⟨⟨fun s t f o h => ?_, fun s t f o h => ⟨?_, ?_⟩⟩, fun s t f o h => ?_, fun s t f o h => ?_, fun s t f o h => ?_⟩
  · refine inHubCycle_of_withOperands h (exec_cogid s f) rfl fun he => ⟨fun hwc => ?_, fun hwc => ?_⟩
    · rw [hwc] at he
      rw [← numberWord_eq, ← zOf_numberWord]
      exact he ▸ State.finishD_delivers _ _ _ _ _
    · rw [hwc] at he
      exact ⟨_, he⟩
  · exact inHubCycle_of_withOperands h (exec_cogstop s f) rfl fun he =>
      ⟨fun hne => he.trans (if_neg hne), fun heq => he.trans (if_pos heq)⟩
  · refine inHubCycle_of_withOperands h (exec_clkset s f) rfl fun he => ⟨fun h8 hon => ?_, fun h8 hoff => ?_, fun h8 => ?_⟩
    · exact he.trans ((if_neg (by rw [h8]; decide)).trans (if_neg fun hc => hon ((clockOff_iff _).mp hc)))
    · exact he.trans ((if_neg (by rw [h8]; decide)).trans (if_pos ((clockOff_iff _).mpr hoff)))
    · exact ⟨_, he.trans (if_pos h8), chipReset_spec _⟩
  · refine inHubCycle_of_withOperands h (exec_locknew s f) rfl fun he => ⟨fun k hk hlow => ?_, fun hno => ?_⟩
    · rw [State.freeLock_some hk hlow] at he
      dsimp only at he
      rw [he, ← numberWord_eq, ← zOf_numberWord]
      exact State.finishD_delivers _ _ _ _ _
    · rw [State.freeLock_none hno] at he
      dsimp only at he
      rw [he]
      exact ⟨_, _, State.finishD_delivers _ _ _ _ _⟩
  · exact inHubCycle_of_withOperands h (exec_lockret s f) rfl id
  · have op {i : Instr} {v : Bool} (he : exec i s = s.lockOp f v) := inHubCycle_of_withOperands h he rfl id
    simp only [List.forall_mem_cons]
    exact ⟨op (exec_lockset s f), op (exec_lockclr s f), List.forall_mem_nil _⟩

end

end Sys2Proof.Machine
end

section
/-!
PROOFS. INDA and INDB pointers, AUX accesses and the AUX pointers (42_indirect_aux.md).
-/

set_option Elab.async false

namespace Sys2Proof.Machine

open Sys2Proof

/-! ### INDA and INDB -/

theorem IndReg.fix_eq (a b : RegAddr) :
    IndReg.fix a b = ⟨a, BitVec.ofNat 9 (min a.toNat b.toNat), BitVec.ofNat 9 (max a.toNat b.toNat)⟩ := by
  rw [IndReg.fix]
  split_ifs with h
  · rw [min_eq_left h, max_eq_right h, BitVec.ofNat_toNat, BitVec.ofNat_toNat, BitVec.setWidth_eq, BitVec.setWidth_eq]
  · rw [min_eq_right (by omega), max_eq_left (by omega), BitVec.ofNat_toNat, BitVec.ofNat_toNat, BitVec.setWidth_eq,
      BitVec.setWidth_eq]

theorem setInds_ends (s : State) (a b : IndReg → IndReg) :
    s.setInds a b = .next (s.ends { s.cog with inda := a s.cog.inda, indb := b s.cog.indb } 0) := rfl

section
variable (r : IndReg)

theorem IndReg.inc_top (h : r.ptr = r.top) : r.inc = r.bot := if_pos h

theorem IndReg.dec_bot (h : r.ptr = r.bot) : r.dec = r.top := if_pos h

theorem IndReg.inc_toNat (ht : r.ptr.toNat ≤ r.top.toNat) (h : r.ptr ≠ r.top) : r.inc.toNat = r.ptr.toNat + 1 := by
  have hne : r.ptr.toNat ≠ r.top.toNat := fun e => h (BitVec.eq_of_toNat_eq e)
  have := r.top.isLt
  rw [IndReg.inc, if_neg h, BitVec.toNat_add]
  exact Nat.mod_eq_of_lt (show r.ptr.toNat + 1 < 512 by omega)

theorem IndReg.dec_toNat (hb : r.bot.toNat ≤ r.ptr.toNat) (h : r.ptr ≠ r.bot) : r.dec.toNat + 1 = r.ptr.toNat := by
  have hne : r.ptr.toNat ≠ r.bot.toNat := fun e => h (BitVec.eq_of_toNat_eq e)
  have := r.ptr.isLt
  rw [IndReg.dec, if_neg h, BitVec.toNat_sub]
  show (2 ^ 9 - 1 + r.ptr.toNat) % 2 ^ 9 + 1 = r.ptr.toNat
  omega

variable (hb : r.bot.toNat ≤ r.ptr.toNat) (ht : r.ptr.toNat ≤ r.top.toNat)
include hb ht

theorem IndReg.inc_inside : r.bot.toNat ≤ r.inc.toNat ∧ r.inc.toNat ≤ r.top.toNat := by
  by_cases h : r.ptr = r.top
  · rw [r.inc_top h]
    omega
  · have hne : r.ptr.toNat ≠ r.top.toNat := fun e => h (BitVec.eq_of_toNat_eq e)
    rw [r.inc_toNat ht h]
    omega

theorem IndReg.dec_inside : r.bot.toNat ≤ r.dec.toNat ∧ r.dec.toNat ≤ r.top.toNat := by
  by_cases h : r.ptr = r.bot
  · rw [r.dec_bot h]
    omega
  · have hne : r.ptr.toNat ≠ r.bot.toNat := fun e => h (BitVec.eq_of_toNat_eq e)
    have := r.dec_toNat hb h
    omega

theorem IndReg.addr_inside (m : BitVec 2) : r.bot.toNat ≤ (r.addr m).toNat ∧ (r.addr m).toNat ≤ r.top.toNat := by
  unfold IndReg.addr
  split_ifs
  · exact r.inc_inside hb ht
  · exact ⟨hb, ht⟩

theorem IndReg.step_inside (m : BitVec 2) :
    (r.step m).bot.toNat ≤ (r.step m).ptr.toNat ∧ (r.step m).ptr.toNat ≤ (r.step m).top.toNat := by
  unfold IndReg.step
  split_ifs
  · exact ⟨hb, ht⟩
  · exact r.dec_inside hb ht
  · exact r.inc_inside hb ht

end

theorem IndReg.step_limits (r : IndReg) (m : BitVec 2) : (r.step m).bot = r.bot ∧ (r.step m).top = r.top := by
  unfold IndReg.step
  split_ifs <;> exact ⟨rfl, rfl⟩

theorem IndReg.fix_inside (a b : RegAddr) :
    (IndReg.fix a b).bot.toNat ≤ (IndReg.fix a b).ptr.toNat ∧ (IndReg.fix a b).ptr.toNat ≤ (IndReg.fix a b).top.toNat := by
  unfold IndReg.fix
  split_ifs with h
  · exact ⟨le_rfl, h⟩
  · exact ⟨(Nat.not_le.mp h).le, le_rfl⟩

/-- Any pointer is inside the limits $000 and $1FF. -/
theorem free_inside (p : RegAddr) : (0x000#9).toNat ≤ p.toNat ∧ p.toNat ≤ (0x1FF#9).toNat :=
  ⟨Nat.zero_le _, Nat.le_of_lt_succ p.isLt⟩

/-- Settles O29. -/
theorem indirectPointerForms : Obligations.IndirectPointerForms := by
  refine ⟨fun s f => ?_, fun r m h => ?_, fun r a b => ⟨IndReg.fix_inside a b, free_inside a, free_inside _⟩⟩
  · have hfix := IndReg.fix_eq f.s f.d
    have ends {i : Instr} {a b : IndReg → IndReg} (he : exec i s = s.setInds a b) := he.trans (setInds_ends s a b)
    dsimp only
    rw [← hfix]
    simp only [List.forall_mem_cons]
    exact ⟨ends (exec_fixinda s f), ends (exec_fixindb s f), ends (exec_fixinds s f), ends (exec_setindaAbs s f),
      ends (exec_setindaRel s f), ends (exec_setindbAbs s f), ends (exec_setindbRel s f), ends (exec_setindsAbsAbs s f),
      ends (exec_setindsAbsRel s f), ends (exec_setindsRelAbs s f), ends (exec_setindsRelRel s f), List.forall_mem_nil _⟩
  · obtain ⟨hb, ht⟩ := h
    obtain ⟨hbot, htop⟩ := r.step_limits m
    have hstep := r.step_inside hb ht m
    rw [hbot, htop] at hstep
    exact ⟨hstep, r.addr_inside hb ht m, hbot, htop, r.inc_toNat ht, r.inc_top, r.dec_toNat hb, r.dec_bot⟩

/-! ### AUX accesses -/

/-- The complement of an AUX address (D12). -/
theorem not_byte (a : Byte) : ~~~a = 255 - a := by bv_omega

theorem Cog.aux_auxUse (c : Cog) (constant : Bool) (v : Word) : (c.auxUse constant v).cog.aux = c.aux := by
  unfold Cog.auxUse Cog.auxPointer
  dsimp only
  split_ifs <;> rfl

theorem auxRead_auxWrite (m : Sparse Word) (a : Byte) (v : Word) (b : Byte) :
    auxRead (auxWrite m a v) b = if b = a then v else auxRead m b := by
  split_ifs with h
  · rw [h, auxRead_auxWrite_same]
  · exact auxRead_auxWrite_ne m v h

section
variable {s t : State} {o : Operands}

theorem auxLoad_stage4 {f : Dual} {way : Byte → Byte} (h : s.stage4 f.cond (.reg f.d) (auxS f.i f.s) o t)
    (ha : f.i = true → t.task.augs = none) : s.auxLoad f way = t.auxFree (
      let u := t.cog.auxUse f.i o.sv
      let v := auxRead u.cog.aux (way u.addr)
      t.finishD (u.cog.setFlags f.wz f.wc (zOf v) (Config.freeBit t.turn 2)) o.d v (if f.i then 0 else 1)) :=
  (State.withOperands_stage4 h).trans (State.noAugs_of ha)

theorem auxStore_stage4 {f : DualL} {way : Byte → Byte} (h : s.stage4 f.cond (dl f.l f.d) (auxS f.i f.s) o t)
    (ha : f.i = true → t.task.augs = none) : s.auxStore f way = t.auxFree (
      let u := t.cog.auxUse f.i o.sv
      t.finish { u.cog with aux := auxWrite u.cog.aux (way u.addr) o.dv } t.cog.pipe.auxStall) :=
  (State.withOperands_stage4 h).trans (State.noAugs_of ha)

/-- An AUX read of the long at `a`, when XFR is in no AUX mode. -/
theorem auxLoad_spec {f : Dual} {way : Byte → Byte} {i : Instr} {a : Byte}
    (h : s.stage4 f.cond (.reg f.d) (auxS f.i f.s) o t) (ha : f.i = true → t.task.augs = none)
    (he : exec i s = s.auxLoad f way) (hw : way (t.cog.auxUse f.i o.sv).addr = a) :
    (t.cog.xfr.usesAux = false → ∃ c, Out.delivers (exec i s) o.d
        (t.ends (((t.cog.auxUse f.i o.sv).cog.setFlags f.wz f.wc (decide (auxRead t.cog.aux a = 0)) c).writeReg o.d
          (auxRead t.cog.aux a)) (if f.i then 0 else 1)))
      ∧ (t.cog.xfr.usesAux = true → exec i s = .refused .auxBusy) := by
  subst hw
  rw [he, auxLoad_stage4 h ha]
  refine ⟨fun hx => ⟨Config.freeBit t.turn 2, ?_⟩, State.auxFree_busy⟩
  rw [State.auxFree_eq hx]
  dsimp only
  rw [Cog.aux_auxUse]
  exact State.finishD_delivers _ _ _ _ _

/-- An AUX write of the long at `a`, when XFR is in no AUX mode. -/
theorem auxStore_spec {f : DualL} {way : Byte → Byte} {i : Instr} {a : Byte}
    (h : s.stage4 f.cond (dl f.l f.d) (auxS f.i f.s) o t) (ha : f.i = true → t.task.augs = none)
    (he : exec i s = s.auxStore f way) (hw : way (t.cog.auxUse f.i o.sv).addr = a) :
    (t.cog.xfr.usesAux = false → ∃ x, exec i s
        = .next (t.ends { (t.cog.auxUse f.i o.sv).cog with aux := x } t.cog.pipe.auxStall)
        ∧ ∀ b, auxRead x b = if b = a then o.dv else auxRead t.cog.aux b)
      ∧ (t.cog.xfr.usesAux = true → exec i s = .refused .auxBusy) := by
  subst hw
  rw [he, auxStore_stage4 h ha]
  refine ⟨fun hx => ⟨_, State.auxFree_eq hx, fun b => ?_⟩, State.auxFree_busy⟩
  rw [Cog.aux_auxUse]
  exact auxRead_auxWrite _ _ _ b

/-- The pointer expressions of POPX and POPY: one down, then used (R352). -/
theorem Cog.auxPointer_pop (c : Cog) (y : Bool) : c.auxUse true (if y then 0x1DF else 0x15F)
    = ⟨(if y then c.ptry else c.ptrx) - 1, if y then { c with ptry := c.ptry - 1 } else { c with ptrx := c.ptrx - 1 }⟩ := by
  have hm : (bits (0x1DF : RegAddr) 0 5).signExtend 8 = -1 ∧ (bits (0x15F : RegAddr) 0 5).signExtend 8 = -1 := by decide
  cases y with
  | true =>
    refine (Cog.auxUse_expr c (f := 0x1DF) rfl).trans ?_
    rw [Cog.auxPointer, hm.1, ← sub_eq_add_neg]
    rfl
  | false =>
    refine (Cog.auxUse_expr c (f := 0x15F) rfl).trans ?_
    rw [Cog.auxPointer, hm.2, ← sub_eq_add_neg]
    rfl

/-- Those of PUSHX and PUSHY: used, then one up (R352). -/
theorem Cog.auxPointer_push (c : Cog) (y : Bool) : c.auxUse true (if y then 0x1E1 else 0x161)
    = ⟨if y then c.ptry else c.ptrx, if y then { c with ptry := c.ptry + 1 } else { c with ptrx := c.ptrx + 1 }⟩ := by
  cases y with
  | true => exact (Cog.auxUse_expr c (f := 0x1E1) rfl).trans rfl
  | false => exact (Cog.auxUse_expr c (f := 0x161) rfl).trans rfl

/-- Settles O30. -/
theorem auxAccessResults : Obligations.AuxAccessResults := by
  refine ⟨fun s t f o h ha => ⟨?_, ?_⟩, fun s t f o h ha => ⟨?_, ?_⟩, fun s t f o ha => ⟨fun h hsv => ?_, fun h hsv => ?_⟩,
    fun s t f o ha => ⟨fun h hsv => ?_, fun h hsv => ?_⟩⟩
  · exact auxLoad_spec h ha (exec_rdaux s f) rfl
  · exact auxLoad_spec h ha (exec_rdauxr s f) (not_byte _)
  · exact auxStore_spec h ha (exec_wraux s f) rfl
  · exact auxStore_spec h ha (exec_wrauxr s f) (not_byte _)
  · have hu : t.cog.auxUse true o.sv = _ := hsv ▸ t.cog.auxPointer_pop false
    have := auxLoad_spec (f := ⟨f.wz, f.wc, true, f.cond, f.d, 0x15F⟩) h (fun _ => ha) (exec_popx s f) rfl
    rw [hu] at this
    exact this
  · have hu : t.cog.auxUse true o.sv = _ := hsv ▸ t.cog.auxPointer_pop true
    have := auxLoad_spec (f := ⟨f.wz, f.wc, true, f.cond, f.d, 0x1DF⟩) h (fun _ => ha) (exec_popy s f) (not_byte _)
    rw [hu] at this
    exact this
  · have hu : t.cog.auxUse true o.sv = _ := hsv ▸ t.cog.auxPointer_push false
    have := auxStore_spec (f := ⟨f.l, true, f.cond, f.d, 0x161⟩) h (fun _ => ha) (exec_pushx s f) rfl
    rw [hu] at this
    exact this
  · have hu : t.cog.auxUse true o.sv = _ := hsv ▸ t.cog.auxPointer_push true
    have := auxStore_spec (f := ⟨f.l, true, f.cond, f.d, 0x1E1⟩) h (fun _ => ha) (exec_pushy s f) (not_byte _)
    rw [hu] at this
    exact this

/-! ### The AUX pointers -/

/-- A word is read by its fields. -/
theorem decode_join (f : Fields) : decode f.join = (decodeFields f).map Instr.spell := by
  rw [decode, Laws.split_join]

/-- A SINGLE word of the rows $110 to $11F, by its nine-bit code. -/
theorem decode_single17 (wz wc b22 : Bool) (cond : BitVec 4) (d code : BitVec 9) (hc : code.toNat / 16 = 17) :
    decode (Fields.join ⟨0b1111111#7, wz, wc, b22, cond, d, code⟩)
      = (Fields.single17 ⟨0b1111111#7, wz, wc, b22, cond, d, code⟩).map Instr.spell := by
  rw [decode_join, Laws.single17_row _ rfl code rfl hc]

theorem readAuxPtr_delivers {f : SingleZC} {ptr : Cog → Byte} (h : s.stage4 f.cond (.reg f.d) (.raw 0) o t) :
    Out.delivers (s.readAuxPtr f ptr) o.d (t.wrote o.d ((ptr t.cog).setWidth 32) f.wz f.wc (decide (ptr t.cog = 0))
      ((ptr t.cog).getLsbD 7) 0) := by
  rw [State.readAuxPtr, State.withOperands_stage4 h]
  exact State.finishD_delivers _ _ _ _ _

theorem checkAuxPtr_stage4 {f : Zero0ZC} {ptr : Cog → Byte} (h : s.stage4 f.cond (.raw 0) (.raw 0) o t) :
    s.checkAuxPtr f ptr = .next (t.ends (t.cog.setFlags f.wz f.wc (decide (ptr t.cog = 0)) ((ptr t.cog).getLsbD 7)) 0) := by
  rw [State.checkAuxPtr, State.conditional_stage4 h]
  rfl

/-- Settles O31. -/
theorem auxPointerReads : Obligations.AuxPointerReads := by
  intro f f0
  refine ⟨⟨?_, ?_, fun x d => ⟨?_, ?_⟩⟩, fun s t o h => ⟨?_, ?_⟩, fun s t o h => ⟨?_, ?_⟩⟩
  · exact (Laws.RoundTrip.getptrx f).decode_encode rfl
  · exact (Laws.RoundTrip.getptry f).decode_encode rfl
  · exact (decode_single17 f0.wz f0.wc x f0.cond d 0b100010100 (by decide)).trans (by with_unfolding_all rfl)
  · exact (decode_single17 f0.wz f0.wc x f0.cond d 0b100010101 (by decide)).trans (by with_unfolding_all rfl)
  · exact (exec_getptrx s f).symm ▸ readAuxPtr_delivers h
  · exact (exec_getptry s f).symm ▸ readAuxPtr_delivers h
  · exact (exec_chkptrx s f0).trans (checkAuxPtr_stage4 h)
  · exact (exec_chkptry s f0).trans (checkAuxPtr_stage4 h)

end

end Sys2Proof.Machine
end

section
/-!
PROOFS. Repeat blocks, CNT and the waiting instructions (43_tasks_repeat_counter.md).
-/

set_option Elab.async false

namespace Sys2Proof.Machine

open Sys2Proof

section
variable {s t : State} {o : Operands}

/-! ### Loading the repeater -/

theorem startRepeat_spec (t : State) (spacers : Nat) (i : BitVec 6) (left : Passes) :
    let first := t.task.pc + BitVec.ofNat 16 (spacers + 1)
    (t.task.dlyCount = 0 → t.startRepeat spacers i left
        = .next (t.ends (t.cog.setTask { t.task with rep := ⟨true, first, first + i.setWidth 16, left⟩ }) 0))
      ∧ (t.task.dlyCount ≠ 0 → t.startRepeat spacers i left = .refused .delaySlot) :=
  ⟨fun h => if_neg (not_not_intro h), fun h => if_pos h⟩

/-- Settles O33. -/
theorem repeatInstructionsLoadTheRepeater : Obligations.RepeatInstructionsLoadTheRepeater := by
  have after1 (p : Addr) : p + 1 + 1 = p + BitVec.ofNat 16 (1 + 1) := by rw [BitVec.add_assoc]; rfl
  have after3 (p : Addr) : p + 3 + 1 = p + BitVec.ofNat 16 (3 + 1) := by rw [BitVec.add_assoc]; rfl
  refine ⟨fun s n i ha => ?_, fun s t i f o h => ⟨fun hc => ?_, fun hc => ?_⟩, fun s t i f o h => ?_⟩
  · dsimp only
    rw [(exec_reps s n i).trans (State.noAugs_eq true ha), after1]
    exact startRepeat_spec s 1 i (.count n.toNat)
  · dsimp only
    rw [(exec_repd s i f).trans ((State.withOperands_stage4 h).trans (if_neg (Nat.not_lt.mpr hc))), after3]
    exact startRepeat_spec t 3 i (.count o.dv.toNat)
  · exact (exec_repd s i f).trans ((State.withOperands_stage4 h).trans (if_pos hc))
  · dsimp only
    rw [(exec_repdInf s i f).trans (State.conditional_stage4 h), after3]
    exact startRepeat_spec t 3 i .infinite

/-! ### Running a repeat block -/

theorem Task.advance_inside {k : Task} (hd : k.dlyCount = 0) (h : k.rep.active = true) (hp : k.pc ≠ k.rep.last) :
    k.advance = { k with pc := k.pc + 1 } := by
  simp [Task.advance, Repeater.after, hd, h, hp]

/-- The last instruction of a block, by the passes left (R404). -/
theorem Task.advance_last {k : Task} (hd : k.dlyCount = 0) (h : k.rep.active = true) (hp : k.pc = k.rep.last) :
    (k.rep.left = .infinite → k.advance = { k with pc := k.rep.first })
      ∧ (k.rep.left = .count 0 → k.advance = { k with pc := k.rep.last + 1, rep := { k.rep with active := false } })
      ∧ ∀ n, k.rep.left = .count (n + 1) →
          k.advance = { k with pc := k.rep.first, rep := { k.rep with left := .count n } } := by
  refine ⟨fun hl => ?_, fun hl => ?_, fun n hl => ?_⟩ <;> simp [Task.advance, Repeater.after, hd, h, hp, hl]

/-- A task that stands at the first instruction of an active block, which does not run past $FFFF. -/
structure Task.AtBlock (k : Task) : Prop where
  active : k.rep.active = true
  pc : k.pc = k.rep.first
  dly : k.dlyCount = 0
  order : k.rep.first.toNat ≤ k.rep.last.toNat
  room : k.rep.last.toNat + 1 < 2 ^ 16

section
variable {k : Task} (h : k.AtBlock)
include h

theorem Task.AtBlock.toNat_pc {j : Nat} (hj : j ≤ k.rep.last.toNat - k.rep.first.toNat) :
    (k.rep.first + BitVec.ofNat 16 j).toNat = k.rep.first.toNat + j := by
  have h1 := h.order
  have h2 := h.room
  rw [BitVec.toNat_add, BitVec.toNat_ofNat]
  omega

/-- So many instructions into the first pass. -/
theorem Task.AtBlock.iterate {j : Nat} (hj : j ≤ k.rep.last.toNat - k.rep.first.toNat) :
    Task.advance^[j] k = { k with pc := k.rep.first + BitVec.ofNat 16 j } := by
  induction j with
  | zero =>
    show k = { k with pc := k.rep.first + 0#16 }
    rw [BitVec.add_zero, ← h.pc]
  | succ j ih =>
    have hpc := h.toNat_pc (j := j) (by omega)
    have hne : k.rep.first + BitVec.ofNat 16 j ≠ k.rep.last := fun e => by
      have := congrArg BitVec.toNat e
      omega
    rw [Function.iterate_succ_apply', ih (by omega),
      Task.advance_inside (k := { k with pc := k.rep.first + BitVec.ofNat 16 j }) h.dly h.active hne, BitVec.add_assoc]
    congr 2
    exact (BitVec.ofNat_add j 1).symm

/-- A whole pass: what the instruction at its end leaves. -/
theorem Task.AtBlock.pass : Task.advance^[k.rep.last.toNat - k.rep.first.toNat + 1] k
    = Task.advance { k with pc := k.rep.last } := by
  have hlast : k.rep.first + BitVec.ofNat 16 (k.rep.last.toNat - k.rep.first.toNat) = k.rep.last := by
    apply BitVec.eq_of_toNat_eq
    have h1 := h.order
    rw [h.toNat_pc le_rfl]
    omega
  rw [Function.iterate_succ_apply', h.iterate le_rfl, hlast]

theorem Task.AtBlock.toNat_pc_iterate {j : Nat} (hj : j < k.rep.last.toNat - k.rep.first.toNat + 1) :
    (Task.advance^[j] k).pc.toNat = k.rep.first.toNat + j % (k.rep.last.toNat - k.rep.first.toNat + 1) := by
  rw [h.iterate (Nat.le_of_lt_succ hj), Nat.mod_eq_of_lt hj]
  exact h.toNat_pc (Nat.le_of_lt_succ hj)

theorem Task.AtBlock.infinite (hl : k.rep.left = .infinite) (j : Nat) :
    (Task.advance^[j] k).pc.toNat = k.rep.first.toNat + j % (k.rep.last.toNat - k.rep.first.toNat + 1)
      ∧ (Task.advance^[j] k).rep = k.rep := by
  induction j using Nat.strong_induction_on with
  | _ j ih =>
    by_cases hj : j < k.rep.last.toNat - k.rep.first.toNat + 1
    · refine ⟨h.toNat_pc_iterate hj, ?_⟩
      rw [h.iterate (Nat.le_of_lt_succ hj)]
    · obtain ⟨i, rfl⟩ := Nat.exists_eq_add_of_le (Nat.not_lt.mp hj)
      have hpass : Task.advance^[k.rep.last.toNat - k.rep.first.toNat + 1] k = k := by
        rw [h.pass, (Task.advance_last (k := { k with pc := k.rep.last }) h.dly h.active rfl).1 hl]
        simp only [← h.pc]
      rw [Nat.add_comm _ i, Function.iterate_add_apply, hpass, Nat.add_mod_right]
      exact ih i (by omega)

end

/-- A block with `n` further passes, and the task behind it. -/
theorem Task.AtBlock.passes : ∀ (n : Nat) {k : Task}, k.AtBlock → k.rep.left = .count n →
    let len := k.rep.last.toNat - k.rep.first.toNat + 1
    (∀ j, j < len * (n + 1) → (Task.advance^[j] k).pc.toNat = k.rep.first.toNat + j % len)
      ∧ (Task.advance^[len * (n + 1)] k).pc.toNat = k.rep.last.toNat + 1
      ∧ (Task.advance^[len * (n + 1)] k).rep.active = false
  | 0, k, h, hl => by
    have hpass := h.pass
    rw [(Task.advance_last (k := { k with pc := k.rep.last }) h.dly h.active rfl).2.1 hl] at hpass
    have hroom := h.room
    refine ⟨fun j hj => h.toNat_pc_iterate (by omega), ?_, ?_⟩ <;> rw [Nat.zero_add, Nat.mul_one, hpass]
    show (k.rep.last + 1#16).toNat = _
    rw [BitVec.toNat_add]
    exact Nat.mod_eq_of_lt hroom
  | n + 1, k, h, hl => by
    intro len
    have hpass := h.pass
    rw [(Task.advance_last (k := { k with pc := k.rep.last }) h.dly h.active rfl).2.2 n hl] at hpass
    obtain ⟨hin, hpc, hoff⟩ := Task.AtBlock.passes n
      (k := { k with pc := k.rep.first, rep := { k.rep with left := .count n } }) ⟨h.active, rfl, h.dly, h.order, h.room⟩ rfl
    have hsplit : len * (n + 1 + 1) = len * (n + 1) + len := Nat.mul_succ _ _
    refine ⟨fun j hj => ?_, ?_, ?_⟩
    · by_cases hlt : j < len
      · exact h.toNat_pc_iterate hlt
      · obtain ⟨i, rfl⟩ := Nat.exists_eq_add_of_le (Nat.not_lt.mp hlt)
        rw [Nat.add_comm len i, Function.iterate_add_apply, hpass, Nat.add_mod_right]
        exact hin i (by rw [hsplit] at hj; exact Nat.lt_of_add_lt_add_left (Nat.add_comm _ len ▸ hj))
    · rw [hsplit, Function.iterate_add_apply, hpass]
      exact hpc
    · rw [hsplit, Function.iterate_add_apply, hpass]
      exact hoff

/-- Settles O34. -/
theorem repeatBlockRunsItsPasses : Obligations.RepeatBlockRunsItsPasses := by
  intro k ha hp hd ho hr len
  have h : k.AtBlock := ⟨ha, hp, hd, ho, hr⟩
  exact ⟨fun n hl => h.passes n hl, fun hl j => h.infinite hl j⟩

/-! ### CNT -/

theorem chained_eq (c : Cog) : c.chained = decide (c.chain.left = 1 ∧ c.chain.task = c.cur) :=
  (Bool.decide_and _ _).symm

theorem borrow_word (b : Bool) : (BitVec.ofBool b).setWidth 32 = if b then 1#32 else 0 := by cases b <;> rfl

theorem countDiff_eq (t : State) (v : Word) : t.countDiff v =
    if decide (t.cog.chain.left = 1 ∧ t.cog.chain.task = t.cog.cur) = true
    then bits t.hub.cntPrev 32 32 - v - (if t.cog.chain.borrow then 1 else 0) else bits t.hub.cnt 0 32 - v := by
  rw [State.countDiff, chained_eq, borrow_word]
  rfl

theorem nextChain_eq (t : State) (v : Word) : t.nextChain v =
    if decide (t.cog.chain.left = 1 ∧ t.cog.chain.task = t.cog.cur) = true then { t.cog.chain with left := 0 }
    else ⟨2, t.cog.cur, decide ((bits t.hub.cnt 0 32).toNat < v.toNat)⟩ := by
  rw [State.nextChain, chained_eq]
  rfl

theorem DResult.holds.readCount {g : DResult} {f : SingleZC} {value : State → Word}
    (h : s.stage4 f.cond (.reg f.d) (.raw 0) o t) (he : exec g.i s = s.readCount f value) (hs : g.stall = 0)
    (hr : g.r (value t)) (hz : g.z (value t) (zOf (value t))) (hc : g.c (value t).msb) : g.holds s t o.d f.wz f.wc := by
  rw [State.readCount, State.withOperands_stage4 h, ← hs] at he
  exact .of_putResult he ⟨hr, hz, hc⟩

/-- Settles O36. -/
theorem counterReads : Obligations.CounterReads := by
  refine ⟨fun s t f o h => ⟨?_, ?_⟩, fun s t f o h => ?_⟩
  · simp only [List.forall_mem_cons]
    exact ⟨.readCount h (exec_getcnt s f) rfl rfl (zOf_eq_decide _) rfl,
      .readCount h (exec_getcntx s f) rfl rfl (zOf_eq_decide _) rfl, List.forall_mem_nil _⟩
  · have read (D : Word) (C : Chain) (hD : t.countDiff o.dv = D) (hC : t.nextChain o.dv = C) :
        Out.delivers (exec (.subcnt f) s) o.d (t.ends ((({ t.cog with chain := C } : Cog).setFlags f.wz f.wc (decide (D = 0))
          (!D.getLsbD 31)).writeReg o.d D) 0) := by
      subst hD hC
      rw [exec_subcnt, execSubcnt, State.withOperands_stage4 h]
      exact State.finishD_delivers _ _ _ _ _
    exact read _ _ (countDiff_eq t o.dv) (nextChain_eq t o.dv)
  · have compare (D : Word) (C : Chain) (hD : t.countDiff o.dv = D) (hC : t.nextChain o.dv = C) : exec (.cmpcnt f) s
        = .next (t.ends (({ t.cog with chain := C } : Cog).setFlags false f.wc false (!D.getLsbD 31)) 0) := by
      subst hD hC
      rw [exec_cmpcnt, execCmpcnt, State.withOperands_stage4 h]
      rfl
    exact compare _ _ (countDiff_eq t o.dv) (nextChain_eq t o.dv)

/-! ### Waiting -/

theorem passcnt_stage4 {f : SingleL} (h : s.stage4 f.cond (dl f.l f.d) (.raw 0) o t) : exec (.passcnt f) s
    = if (bits t.hub.cnt 0 32 - o.dv).getLsbD 31 then t.branch t.cog t.task.pc else t.fallThrough t.cog := by
  rw [exec_passcnt, execPasscnt, State.withOperands_stage4 h]
  rfl

theorem waitcnt_stage4 {f : DualP} (h : s.stage4 f.cond (.reg f.d) (si f.i f.s) o t) : exec (.waitcnt f) s
    = if bits t.hub.cnt 0 32 = o.dv then t.finishD t.cog o.d (o.dv + o.sv) else t.hold o := by
  rw [exec_waitcnt, execWaitcnt, State.withOperands_stage4 h]
  rfl

theorem waitcntWc_stage4 {f : DualP} (h : s.stage4 f.cond (.reg f.d) (si f.i f.s) o t) : exec (.waitcntWc f) s
    = if t.hub.cnt = t.cog.lastD ++ o.dv then
        t.finishD (t.cog.setFlags false true false (carryAdd o.dv o.sv false)) o.d (o.dv + o.sv)
      else t.hold o := by
  rw [exec_waitcntWc, execWaitcntWc, State.withOperands_stage4 h]

/-- How a wait for pins ends, and that it waits until then (R420, U42). -/
theorem endWait_spec {out : Out} {wc met pin : Bool}
    (he : out = if met || t.timedOut wc then t.endWait wc met (t.timedOut wc) else t.hold o pin) :
    let timeout := wc && decide (bits t.hub.cnt 0 32 = t.cog.lastD)
    (met = true → timeout = false → out = .next (t.ends (t.cog.setFlags false wc false false) 0))
      ∧ (met = false → timeout = true → out = .next (t.ends (t.cog.setFlags false wc false true) 0))
      ∧ (met = true → timeout = true → ∃ c, out = .next (t.ends (t.cog.setFlags false wc false c) 0))
      ∧ (met = false → timeout = false → out = .next (t.waits o pin)) := by
  intro timeout
  have ht : t.timedOut wc = timeout := rfl
  rw [ht] at he
  subst he
  refine ⟨fun hm hv => ?_, fun hm hv => ?_, fun hm hv => ⟨Config.freeBit t.turn 1, ?_⟩, fun hm hv => ?_⟩ <;> rw [hm, hv] <;> rfl

theorem waitPort_spec {n : BitVec 2} {f : DualC} {test : Word → Word → Bool} {i : Instr} {met : Bool}
    (h : s.stage4 f.cond (.reg f.d) (si f.i f.s) o t) (he : exec i s = s.waitPort n f test)
    (hm : met = test (t.pinLong t.cog n.toFin &&& o.sv) o.dv) :
    exec i s = if met || t.timedOut f.wc then t.endWait f.wc met (t.timedOut f.wc) else t.hold o := by
  rw [he, State.waitPort, State.withOperands_stage4 h, hm]

/-- The level an edge wait compares with: that of the last look, before the first one any (R422). -/
def State.levelBefore (t : State) : Bool :=
  match t.cog.pipe.waiting with
  | some w => w.pin
  | none => Config.freeBit t.turn 3

theorem State.stage4.levelBefore {cond : BitVec 4} {du : DUse} {su : SUse} (h : s.stage4 cond du su o t) {w : Waiting}
    (hw : s.cog.pipe.waiting = some w) : t.levelBefore = w.pin := by
  obtain ⟨⟨hn, -⟩, -⟩ | ⟨w', hw', -, rfl⟩ := h
  · rw [hn] at hw
    cases hw
  · rw [State.levelBefore, hw]

theorem waitEdge_spec {f : SingleCL} {edge : Bool → Bool → Bool} {i : Instr}
    (h : s.stage4 f.cond (dl f.l f.d) (.raw 0) o t) (he : exec i s = s.waitEdge f edge) :
    let now := t.pinIn t.cog (bits o.dv 0 7)
    exec i s = if edge t.levelBefore now || t.timedOut f.wc then t.endWait f.wc (edge t.levelBefore now) (t.timedOut f.wc)
      else t.hold o now := by
  rw [he, State.waitEdge, State.withOperands_stage4 h]
  rfl

/-- Settles O37. -/
theorem waitInstructions : Obligations.WaitInstructions := by
  refine ⟨⟨fun s t f o h => ⟨fun hp => ?_, fun hp => ?_, ?_⟩, fun s t f o h => ⟨fun hc => ?_, fun hc => ?_, fun hc => ?_,
    fun hc => ?_⟩⟩, fun s t n f o h => ⟨?_, ?_⟩, fun s t f o h => ⟨t.levelBefore, fun w hw => h.levelBefore hw, ?_, ?_, ?_⟩⟩
  · rw [passcnt_stage4 h, if_pos hp]
    exact State.branch_branches _ _ _ _
  · rw [passcnt_stage4 h, if_neg (by rw [hp]; decide)]
    exact State.fallThrough_falls _ _
  · rw [exec_wait, execWait, State.withOperands_stage4 h, show max o.dv.toNat 1 - 1 = o.dv.toNat - 1 by omega]
    rfl
  · rw [waitcnt_stage4 h, if_pos hc]
    exact State.finishD_delivers _ _ _ _ _
  · rw [waitcnt_stage4 h, if_neg hc]
    rfl
  · rw [waitcntWc_stage4 h, if_pos hc]
    exact State.finishD_delivers _ _ _ _ _
  · rw [waitcntWc_stage4 h, if_neg hc]
    rfl
  · exact endWait_spec (waitPort_spec h (exec_waitpeq s n f) rfl)
  · exact endWait_spec (waitPort_spec h (exec_waitpne s n f) (decide_not ..))
  · exact endWait_spec (waitEdge_spec h (exec_waitpx s f))
  · exact endWait_spec (waitEdge_spec h (exec_waitpr s f))
  · exact endWait_spec (waitEdge_spec h (exec_waitpf s f))

end

end Sys2Proof.Machine
end

section
/-!
PROOFS. Tasks and what a branch does to them (43_tasks_repeat_counter.md, 44_branches.md).
-/

set_option Elab.async false

namespace Sys2Proof.Machine

open Sys2Proof

/-! ### Tasks sent elsewhere -/

/-- An entry of the queue after the tasks in `sent` were sent elsewhere. -/
def Slot.after (sent : Fin 4 → Bool) (e : Slot) : Slot := if sent e.task = true then { e with cancelled := true } else e

section
variable (sent : Fin 4 → Bool) (e : Slot)

theorem Slot.task_after : (e.after sent).task = e.task := by unfold Slot.after; split_ifs <;> rfl
theorem Slot.word_after : (e.after sent).word = e.word := by unfold Slot.after; split_ifs <;> rfl

theorem Slot.cancelled_of_after (h : (e.after sent).cancelled = false) : e.cancelled = false := by
  unfold Slot.after at h
  split_ifs at h
  exact h

theorem Slot.after_cancelled (h : sent e.task = true) : (e.after sent).cancelled = true := by
  rw [Slot.after, if_pos h]

theorem Slot.after_kept (h : sent e.task = false) : e.after sent = e := by
  rw [Slot.after, if_neg (by rw [h]; decide)]

theorem Slot.after_after (k : Fin 4) (hk : sent k = false) :
    (if (e.after sent).task = k then { e.after sent with cancelled := true } else e.after sent)
      = e.after fun j => sent j || j == k := by
  rw [Slot.task_after, Slot.after, Slot.after]
  by_cases h : e.task = k
  · simp [h, hk]
  · simp [h]

end

/-- The queue `q` after the tasks in `sent` were sent elsewhere: their entries are cancelled, and where stage 1 is
fetching for one of them, that entry comes as a cancelled one behind. -/
structure QueueAfter (c : Cog) (sent : Fin 4 → Bool) (q : List Slot) : Prop where
  parts : ∃ tail, q = c.pipe.queue.map (Slot.after sent) ++ tail
    ∧ (∀ e ∈ tail, sent e.task = true ∧ e.cancelled = true)
    ∧ (c.pipe.queue.length = 2 → (tail = [] ∧ sent (c.taskLater 3) = false) ∨ ∃ e, tail = [e] ∧ e.task = c.taskLater 3)

/-- No word of the first two of the queue that is to be cancelled for a task acts in stage 2 (R1005). -/
def Cog.quiet (c : Cog) (p : Fin 4 → Prop) : Prop :=
  ∀ e ∈ c.pipe.queue.take 2, p e.task → e.cancelled = true ∨ wordActsEarly e.word = false

/-- The cog `k` is `c` after the tasks in `sent` were sent to `target` and nothing else happened (R391, R395). -/
structure Cog.Redirected (c k : Cog) (target : Addr) (sent : Fin 4 → Bool) : Prop where
  ram : k.ram = c.ram
  aux : k.aux = c.aux
  ports : k.ports = c.ports
  units : c.sameUnits k
  wide : k.wide = c.wide
  lastD : k.lastD = c.lastD
  sched : k.sched = c.sched
  ind : c.quiet (fun j => sent j = true) → k.inda = c.inda ∧ k.indb = c.indb
  queue : QueueAfter c sent k.pipe.queue
  others : ∀ j, sent j = false → k.tasks.get j = c.tasks.get j
  task : ∀ j, sent j = true → (k.tasks.get j).pc = target ∧ (k.tasks.get j).dlyCount = 0
    ∧ (k.tasks.get j).z = (c.tasks.get j).z ∧ (k.tasks.get j).c = (c.tasks.get j).c
    ∧ (k.tasks.get j).stack = (c.tasks.get j).stack ∧ (k.tasks.get j).augs = (c.tasks.get j).augs
    ∧ (k.tasks.get j).augd = (c.tasks.get j).augd
    ∧ (c.quiet (fun i => i = j) → (k.tasks.get j).rep.active = false)

theorem Cog.sameUnits.refl (c : Cog) : c.sameUnits c := by
  constructor <;> first | rfl | exact ⟨rfl, rfl, rfl, rfl⟩

theorem Cog.sameUnits_redirect (s : State) (c : Cog) (t : Fin 4) (p : Addr) : c.sameUnits (s.redirect c t p) := by
  constructor <;> first | rfl | exact ⟨rfl, rfl, rfl, rfl⟩

theorem Cog.sameUnits_endCycle (c : Cog) (n : Nat) : c.sameUnits (c.endCycle n) := by
  constructor <;> first | rfl | exact ⟨rfl, rfl, rfl, rfl⟩ | exact Sched.task_advance _

theorem QueueAfter.refl (c : Cog) : QueueAfter c (fun _ => false) c.pipe.queue := by
  refine ⟨[], ?_, by simp, fun _ => .inl ⟨rfl, rfl⟩⟩
  have h : c.pipe.queue.map (Slot.after fun _ => false) = c.pipe.queue.map id :=
    List.map_congr_left fun e _ => Slot.after_kept _ e rfl
  rw [h, List.map_id, List.append_nil]

theorem Cog.Redirected.refl (c : Cog) (p : Addr) : c.Redirected c p fun _ => false where
  ram := rfl
  aux := rfl
  ports := rfl
  units := .refl c
  wide := rfl
  lastD := rfl
  sched := rfl
  ind _ := ⟨rfl, rfl⟩
  queue := .refl c
  others _ _ := rfl
  task _ h := by cases h

section
variable {c k : Cog} {p : Addr} {sent : Fin 4 → Bool} {t : Fin 4}

/-- A word that is cancelled for one more task stood in the queue before, not cancelled. -/
theorem QueueAfter.shadow (h : QueueAfter c sent k.pipe.queue) (ht : c.quiet fun j => j = t) :
    (k.shadow t).any wordActsEarly = false := by
  obtain ⟨tail, hq, htail, -⟩ := h
  rw [List.any_eq_false]
  intro w hw
  obtain ⟨e, he, rfl⟩ := List.mem_map.mp hw
  obtain ⟨hmem, hcond⟩ := List.mem_filter.mp he
  obtain ⟨htask, hnot⟩ := (Bool.and_eq_true _ _).mp hcond
  have hnot : e.cancelled = false := by simpa using hnot
  rw [hq, List.take_append, ← List.map_take] at hmem
  rcases List.mem_append.mp hmem with hm | hm
  · obtain ⟨e0, h0, rfl⟩ := List.mem_map.mp hm
    rw [Slot.task_after] at htask
    rcases ht e0 h0 (by simpa using htask) with hc | hw
    · rw [Slot.cancelled_of_after sent e0 hnot] at hc
      cases hc
    · rw [Slot.word_after, hw]
      decide
  · rw [(htail e (List.mem_of_mem_take hm)).2] at hnot
    cases hnot

theorem Cog.taskLater_congr (h : k.sched = c.sched) (n : Nat) : k.taskLater n = c.taskLater n := by
  rw [Cog.taskLater, Cog.taskLater, h]

theorem QueueAfter.cancel (h : QueueAfter c sent k.pipe.queue) (hs : k.sched = c.sched) (ht : sent t = false) :
    QueueAfter c (fun j => sent j || j == t) (k.cancel t) := by
  obtain ⟨tail, hq, htail, hlast⟩ := h
  have hmap : k.pipe.queue.map (fun e => if e.task = t then { e with cancelled := true } else e)
      = c.pipe.queue.map (Slot.after fun j => sent j || j == t) ++ tail := by
    rw [hq, List.map_append, List.map_map]
    congr 1
    · exact List.map_congr_left fun e _ => Slot.after_after sent e t ht
    · refine (List.map_congr_left fun e he => ?_).trans (List.map_id tail)
      rw [if_neg fun e' => by rw [← e', (htail e he).1] at ht; cases ht]
      rfl
  have hsent : ∀ e ∈ tail, (sent e.task || e.task == t) = true ∧ e.cancelled = true := fun e he => by
    rw [(htail e he).1]
    exact ⟨rfl, (htail e he).2⟩
  unfold Cog.cancel
  dsimp only
  rw [hmap]
  split_ifs with hfetch
  · obtain ⟨hlen, hnext⟩ := (Bool.and_eq_true _ _).mp hfetch
    refine ⟨tail ++ [⟨0, t, k.fetchAddr t, true, false⟩], List.append_assoc _ _ _, fun e he => ?_, fun h2 => ?_⟩
    · rcases List.mem_append.mp he with he | he
      · exact hsent e he
      · rw [List.mem_singleton.mp he]
        simp
    · rcases hlast h2 with ⟨rfl, -⟩ | ⟨e, rfl, -⟩
      · rw [List.append_nil, List.length_map, h2, Cog.taskLater_congr hs] at hnext
        exact .inr ⟨_, rfl, (beq_iff_eq.mp hnext).symm⟩
      · rw [List.length_append, List.length_map, h2] at hlen
        simp at hlen
  · refine ⟨tail, rfl, hsent, fun h2 => ?_⟩
    rcases hlast h2 with ⟨rfl, hno⟩ | hone
    · refine .inl ⟨rfl, ?_⟩
      rw [List.append_nil, List.length_map, h2, Cog.taskLater_congr hs] at hfetch
      rw [hno]
      simpa using hfetch
    · exact .inr hone

/-- One more task is sent to the target. -/
theorem Cog.Redirected.send (h : c.Redirected k p sent) (s : State) (ht : sent t = false) :
    c.Redirected (s.redirect k t p) p fun j => sent j || j == t where
  ram := h.ram
  aux := h.aux
  ports := h.ports
  units := h.units.trans (Cog.sameUnits_redirect s k t p)
  wide := h.wide
  lastD := h.lastD
  sched := h.sched
  ind hq := by
    obtain ⟨ha, hb⟩ := h.ind fun e he (hj : sent e.task = true) =>
      hq e he (show (sent e.task || e.task == t) = true by rw [hj]; rfl)
    obtain ⟨ha', hb', -⟩ := State.redirect_quiet (s := s) (p := p)
      (h.queue.shadow (t := t) fun e he hj => hq e he (by rw [hj]; simp))
    exact ⟨ha'.trans ha, hb'.trans hb⟩
  queue := h.queue.cancel h.sched ht
  others j hj := by
    obtain ⟨hs, hne⟩ := Bool.or_eq_false_iff.mp hj
    exact (Quad.get_set_ne _ _ (by simpa using hne)).trans (h.others j hs)
  task j hj := by
    by_cases hjt : j = t
    · subst hjt
      have hold := h.others j ht
      have hget : (s.redirect k j p).tasks.get j = _ := Quad.get_set_same _ _ _
      refine ⟨?_, ?_, ?_, ?_, ?_, ?_, ?_, fun hq => ?_⟩
      any_goals rw [hget]
      any_goals rw [← hold]
      rw [← hget, (State.redirect_quiet (s := s) (p := p) (h.queue.shadow hq)).2.2]
    · have hs : sent j = true := by simpa [hjt] using hj
      have hget : (s.redirect k t p).tasks.get j = k.tasks.get j := Quad.get_set_ne _ _ hjt
      rw [hget]
      exact h.task j hs

theorem QueueAfter.cancelled (h : QueueAfter c sent k.pipe.queue) {e : Slot} (he : e ∈ k.pipe.queue)
    (hs : sent e.task = true) : e.cancelled = true := by
  obtain ⟨tail, hq, htail, -⟩ := h
  rw [hq] at he
  rcases List.mem_append.mp he with hm | hm
  · obtain ⟨e0, -, rfl⟩ := List.mem_map.mp hm
    exact Slot.after_cancelled _ _ (by rwa [Slot.task_after] at hs)
  · exact (htail e hm).2

theorem QueueAfter.kept (h : QueueAfter c sent k.pipe.queue) {e : Slot} (he : e ∈ c.pipe.queue)
    (hs : sent e.task = false) : e ∈ k.pipe.queue := by
  obtain ⟨tail, hq, -, -⟩ := h
  rw [hq]
  exact List.mem_append_left _ (List.mem_map.mpr ⟨e, he, Slot.after_kept _ _ hs⟩)

theorem QueueAfter.fetching (h : QueueAfter c sent k.pipe.queue) (h2 : c.pipe.queue.length = 2)
    (hs : sent (c.taskLater 3) = true) :
    ∃ q1 e, k.pipe.queue = q1 ++ [e] ∧ q1.length = 2 ∧ e.task = c.taskLater 3 ∧ e.cancelled = true := by
  obtain ⟨tail, hq, htail, hlast⟩ := h
  rcases hlast h2 with ⟨-, hno⟩ | ⟨e, rfl, he⟩
  · rw [hs] at hno
    cases hno
  · exact ⟨_, e, hq, by rw [List.length_map, h2], he, (htail e (List.mem_singleton.mpr rfl)).2⟩

/-- A taken branch sends the current task, and only it. -/
theorem Cog.Redirected.branch (s : State) (c : Cog) (p : Addr) :
    c.Redirected (s.redirect c c.cur p) p fun j => j == c.cur := by
  have h := (Cog.Redirected.refl c p).send s (t := c.cur) rfl
  simpa using h

/-- JMPTASK up to task `t`, and then task `t` too where the mask has it. -/
theorem Cog.Redirected.next {mask : BitVec 4} (s : State)
    (h : c.Redirected k p fun j => mask.getLsbD j.val && decide (j.val < t.val)) :
    c.Redirected (if mask.getLsbD t.val then s.redirect k t p else k) p
      fun j => mask.getLsbD j.val && decide (j.val < t.val + 1) := by
  by_cases hm : mask.getLsbD t.val = true
  · rw [if_pos hm]
    convert h.send s (t := t) (by simp) using 2 with j
    by_cases hj : j = t
    · simp [hj, hm]
    · have : j.val ≠ t.val := fun e => hj (Fin.ext e)
      simp [hj, show (j.val < t.val + 1) = (j.val < t.val) from propext (by omega)]
  · rw [if_neg hm]
    convert h using 2 with j
    by_cases hj : j = t
    · rw [hj, (Bool.not_eq_true _).mp hm]
      rfl
    · have : j.val ≠ t.val := fun e => hj (Fin.ext e)
      simp [show (j.val < t.val + 1) = (j.val < t.val) from propext (by omega)]

end

/-- The cog after JMPTASK has sent the tasks of the mask (R395). -/
def State.sendTasks (s : State) (mask : BitVec 4) (target : Addr) : Cog :=
  let one (c : Cog) (t : Fin 4) : Cog := if mask.getLsbD t.val then s.redirect c t target else c
  one (one (one (one s.cog 0) 1) 2) 3

theorem State.jumpTasks_eq (s : State) (mask : BitVec 4) (target : Addr) : s.jumpTasks mask target
    = if mask.getLsbD s.cog.cur.val then .next (s.setCog ((s.sendTasks mask target).endCycle 0))
      else .next (s.ends (s.sendTasks mask target) 0) := rfl

theorem State.sendTasks_redirected (s : State) (mask : BitVec 4) (p : Addr) :
    s.cog.Redirected (s.sendTasks mask p) p fun j => mask.getLsbD j.val := by
  have h0 : s.cog.Redirected s.cog p fun j => mask.getLsbD j.val && decide (j.val < (0 : Fin 4).val) := by
    simpa using Cog.Redirected.refl s.cog p
  have h4 := (((h0.next s).next s (t := 1)).next s (t := 2)).next s (t := 3)
  have hall : (fun j : Fin 4 => mask.getLsbD j.val && decide (j.val < (3 : Fin 4).val + 1)) = fun j => mask.getLsbD j.val :=
    funext fun j => by simp
  rw [hall] at h4
  exact h4

/-! ### What a taken branch does -/

theorem Task.advance_counting {k : Task} (ha : k.rep.active = false) (hd : k.dlyCount ≠ 1) :
    k.advance = { k with pc := k.pc + 1, dlyCount := k.dlyCount - 1 } := by
  simp [Task.advance, Repeater.after, ha, hd]

theorem Task.advance_arrives {k : Task} (ha : k.rep.active = false) (hd : k.dlyCount = 1) :
    k.advance = { k with pc := k.dlyTarget, dlyCount := 0 } := by
  simp [Task.advance, Repeater.after, ha, hd]

/-- A task that counts down to a delayed branch: two instructions further on, then at its target (R451). -/
theorem Task.advance_delayed {k : Task} (ha : k.rep.active = false) (hd : k.dlyCount = 3) :
    k.advance.pc = k.pc + 1 ∧ k.advance.advance.pc = k.pc + 1 + 1
      ∧ k.advance.advance.advance.pc = k.dlyTarget ∧ k.advance.advance.advance.dlyCount = 0 := by
  have h1 := Task.advance_counting ha (by rw [hd]; decide)
  have h2 := Task.advance_counting (k := k.advance) (by rw [h1]; exact ha) (by simp [h1, hd])
  have h3 := Task.advance_arrives (k := k.advance.advance) (by rw [h2, h1]; exact ha) (by rw [h2, h1]; simp [hd])
  rw [h3, h2, h1]
  exact ⟨rfl, rfl, rfl, rfl⟩

theorem State.cog_jumped (s : State) (c : Cog) (p : Addr) (delayed : Bool) (stall : Nat) :
    (s.jumped c p delayed stall).cog = (if delayed then c.delayed p else s.redirect c c.cur p).endCycle stall :=
  State.cog_setCog _ _

theorem Cog.task_delayed (c : Cog) (p : Addr) : (c.delayed p).tasks.get c.cur
    = { c.task with pc := c.task.pc + 1, rep := { c.task.rep with active := false }, dlyTarget := p, dlyCount := 3 } :=
  Quad.get_set_same _ _ _

/-- Settles O35. -/
theorem branchesRedirectTheTask : Obligations.BranchesRedirectTheTask := by
  refine ⟨fun s c a stall => ?_, fun s c a stall => ?_⟩
  · intro u q
    have hu : u = (s.redirect c c.cur a).endCycle stall := State.cog_jumped s c a false stall
    have h := Cog.Redirected.branch s c a
    obtain ⟨hpc, hdly, hz, hc, hstack, -, -, hrep⟩ := h.task c.cur (beq_self_eq_true _)
    rw [hu]
    refine ⟨hpc, hdly, hstack, hz, hc, fun hq => ?_, fun e he ht => h.queue.cancelled he (by simp [ht]), fun h2 hl => ?_,
      fun e he ht => h.queue.kept he (by simpa using ht), fun k hk => h.others k (by simpa using hk)⟩
    · obtain ⟨ha, hb⟩ := h.ind fun e he hj => hq e he (by simpa using hj)
      exact ⟨hrep hq, ha, hb⟩
    · obtain ⟨q1, e, hq1, hlen, ht, hcan⟩ := h.queue.fetching h2 (by simp [hl])
      exact ⟨q1, e, hq1, hlen, ht.trans hl, hcan⟩
  · intro k
    have hk : k = _ := (congrArg (fun x : Cog => x.tasks.get c.cur) (State.cog_jumped s c a true stall)).trans (c.task_delayed a)
    have hpc : k.pc = c.task.pc + 1 := congrArg Task.pc hk
    have hrep : k.rep.active = false := congrArg (fun x : Task => x.rep.active) hk
    obtain ⟨h1, h2, h3, h4⟩ := Task.advance_delayed hrep (congrArg Task.dlyCount hk)
    rw [hpc, BitVec.add_assoc] at h1 h2
    rw [BitVec.add_assoc] at h2
    have hcog := State.cog_jumped s c a true stall
    exact ⟨hpc, h1, h2, h3.trans (congrArg Task.dlyTarget hk), h4, hrep, by rw [hcog]; rfl⟩

/-! ### Task control -/

theorem taskWord_eq (k : Fin 4) : taskWord k = BitVec.ofNat 32 k.val := by fin_cases k <;> rfl

section
variable (q : Sched)

theorem Sched.q1_advance : q.advance.q1 = q.q2 := by unfold Sched.advance; split <;> rfl
theorem Sched.q2_advance : q.advance.q2 = q.q3 := by unfold Sched.advance; split <;> rfl
theorem Sched.q3_advance : q.advance.q3 = q.q4 := by unfold Sched.advance; split <;> rfl
theorem Sched.q4_advance : q.advance.q4 = q.q5 := by unfold Sched.advance; split <;> rfl

theorem Sched.slots_advance_kept (h : q.q1 = none) : q.advance.slots = q.slots := by
  unfold Sched.advance
  rw [h]

theorem Sched.advance_new {v : Word} (h : q.q1 = some v) : q.advance.slots = v ∧ q.advance.slot = 0 := by
  unfold Sched.advance
  rw [h]
  exact ⟨rfl, rfl⟩

/-- A schedule that waits in the last place is in force after five instruction cycles (R394). -/
theorem Sched.advance_five {v : Word} (h : q.q5 = some v) :
    (Sched.advance^[5] q).slots = v ∧ (Sched.advance^[5] q).slot = 0 := by
  refine Sched.advance_new (Sched.advance^[4] q) ?_
  show q.advance.advance.advance.advance.q1 = some v
  rw [Sched.q1_advance, Sched.q2_advance, Sched.q3_advance, Sched.q4_advance, h]

theorem Sched.slots_kept (h1 : q.q1 = none) (h2 : q.q2 = none) (h3 : q.q3 = none) (h4 : q.q4 = none) {k : Nat} (hk : k < 5) :
    (Sched.advance^[k] q).slots = q.slots := by
  have s1 : q.advance.slots = q.slots := q.slots_advance_kept h1
  have s2 : q.advance.advance.slots = q.slots := (Sched.slots_advance_kept _ (by rw [Sched.q1_advance, h2])).trans s1
  have s3 : q.advance.advance.advance.slots = q.slots :=
    (Sched.slots_advance_kept _ (by rw [Sched.q1_advance, Sched.q2_advance, h3])).trans s2
  have s4 : q.advance.advance.advance.advance.slots = q.slots :=
    (Sched.slots_advance_kept _ (by rw [Sched.q1_advance, Sched.q2_advance, Sched.q3_advance, h4])).trans s3
  interval_cases k
  · rfl
  · exact s1
  · exact s2
  · exact s3
  · exact s4

end

section
variable {s t : State} {o : Operands}

/-- The cog in which JMPTASK ends: the tasks of the mask sent, and its own, where it is not among them, gone on. -/
theorem jmptask_ends {f : DualL} (h : s.stage4 f.cond (dl f.l f.d) (si f.i f.s) o t) : ∃ k u,
    exec (.jmptask f) s = .next u ∧ u = t.setCog k
      ∧ t.cog.Redirected (t.sendTasks (bits o.dv 0 4) (bits o.sv 0 16)) (bits o.sv 0 16) (fun j => o.dv.getLsbD j.val)
      ∧ (k = (t.sendTasks (bits o.dv 0 4) (bits o.sv 0 16)).endCycle 0 ∧ o.dv.getLsbD t.cog.cur.val = true
        ∨ k = (t.sendTasks (bits o.dv 0 4) (bits o.sv 0 16)).retire 0 ∧ o.dv.getLsbD t.cog.cur.val = false) := by
  have hmask (j : Fin 4) : (bits o.dv 0 4).getLsbD j.val = o.dv.getLsbD j.val := by
    rw [getLsbD_bits _ j.isLt, Nat.zero_add]
  have hr := t.sendTasks_redirected (bits o.dv 0 4) (bits o.sv 0 16)
  rw [show (fun j : Fin 4 => (bits o.dv 0 4).getLsbD j.val) = fun j => o.dv.getLsbD j.val from funext hmask] at hr
  have he : exec (.jmptask f) s = t.jumpTasks (bits o.dv 0 4) (bits o.sv 0 16) :=
    (exec_jmptask s f).trans (State.withOperands_stage4 h)
  rw [State.jumpTasks_eq, hmask] at he
  by_cases hb : o.dv.getLsbD t.cog.cur.val = true
  · exact ⟨_, _, he.trans (if_pos hb), rfl, hr, .inl ⟨rfl, hb⟩⟩
  · exact ⟨_, _, he.trans (if_neg hb), rfl, hr, .inr ⟨rfl, by simpa using hb⟩⟩

theorem State.stage4.kept {cond : BitVec 4} {du : DUse} {su : SUse} (h : s.stage4 cond du su o t) :
    t.hub = s.hub ∧ t.cur = s.cur ∧ t.cog.ram = s.cog.ram ∧ t.cog.aux = s.cog.aux ∧ t.cog.ports = s.cog.ports
      ∧ ∀ k, k ≠ s.cur → t.cogs.get k = s.cogs.get k := by
  obtain ⟨-, -, rfl⟩ | ⟨w, -, -, rfl⟩ := h
  · rw [State.cog_opened]
    exact ⟨rfl, rfl, rfl, rfl, rfl, fun k hk => State.cogs_setCog_ne _ _ hk⟩
  · exact ⟨rfl, rfl, rfl, rfl, rfl, fun _ _ => rfl⟩

theorem Cog.stored_congr {c k : Cog} (hram : k.ram = c.ram) (hports : k.ports = c.ports) (a : RegAddr) :
    k.stored a = c.stored a := by
  rw [Cog.stored, Cog.stored, hram, hports]

/-- Settles O32. -/
theorem taskControl : Obligations.TaskControl := by
  refine ⟨⟨fun s t f o h => ?_, fun s t f o h => ?_, fun q v => ?_⟩, fun s t f o h => ?_⟩
  · exact .readInto h (exec_taskid s f) rfl (taskWord_eq _) (zOf_eq_decide _) fun _ => trivial
  · exact (exec_settask s f).trans (configL_stage4 h)
  · obtain ⟨hv, h0⟩ := Sched.advance_five { q with q5 := some v } rfl
    exact ⟨hv, h0, fun h1 h2 h3 h4 k hk => Sched.slots_kept { q with q5 := some v } h1 h2 h3 h4 hk⟩
  · intro q
    obtain ⟨k, u, he, rfl, hr, hk⟩ := jmptask_ends h
    obtain ⟨hhub, hcur, hram, haux, hports, hcogs⟩ := h.kept
    have same : k.ram = t.cog.ram ∧ k.aux = t.cog.aux ∧ k.ports = t.cog.ports ∧ t.cog.sameUnits k
        ∧ k.wide.regs = t.cog.wide.regs ∧ k.lastD = t.cog.lastD ∧ (t.cog.quiet (fun j => o.dv.getLsbD j.val = true) →
          k.inda = t.cog.inda ∧ k.indb = t.cog.indb) ∧ QueueAfter t.cog (fun j => o.dv.getLsbD j.val) k.pipe.queue := by
      rcases hk with ⟨rfl, -⟩ | ⟨rfl, -⟩
      · exact ⟨hr.ram, hr.aux, hr.ports, hr.units.trans (Cog.sameUnits_endCycle _ _), (congrArg Wide.regs hr.wide :), hr.lastD,
          hr.ind, hr.queue⟩
      · exact ⟨hr.ram, hr.aux, hr.ports, hr.units.trans (Cog.sameUnits_retire _ _), (congrArg Wide.regs hr.wide :), hr.lastD,
          hr.ind, hr.queue⟩
    have tasks : ∀ j, (o.dv.getLsbD j.val = true → k.tasks.get j
          = (t.sendTasks (bits o.dv 0 4) (bits o.sv 0 16)).tasks.get j)
        ∧ (o.dv.getLsbD j.val = false → k.tasks.get j
          = if j = t.cog.cur then (t.cog.tasks.get j).advance else t.cog.tasks.get j) := fun j => by
      have hc : (t.sendTasks (bits o.dv 0 4) (bits o.sv 0 16)).cur = t.cog.cur := by rw [Cog.cur, Cog.cur, hr.sched]
      rcases hk with ⟨rfl, hin⟩ | ⟨rfl, hout⟩
      · refine ⟨fun _ => rfl, fun hj => ?_⟩
        rw [if_neg fun e => by rw [e, hin] at hj; cases hj]
        exact hr.others j hj
      · rw [Cog.tasks_retire, hc, Cog.task, hc]
        refine ⟨fun hj => Quad.get_set_ne _ _ fun e => absurd (e ▸ hj) (by rw [hout]; decide), fun hj => ?_⟩
        by_cases hjc : j = t.cog.cur
        · rw [if_pos hjc, hjc, Quad.get_set_same, hr.others _ hout]
        · rw [if_neg hjc, Quad.get_set_ne _ _ hjc, hr.others j hj]
    obtain ⟨hram', haux', hports', hunits, hregs, hlast, hind, hqueue⟩ := same
    refine ⟨_, he, ?_⟩
    rw [State.cog_setCog]
    refine ⟨⟨hhub, Cog.stored_congr (hram'.trans hram) (hports'.trans hports), haux'.trans haux, hunits, hregs, hlast,
      fun j hj => (State.cogs_setCog_ne _ _ (by rwa [hcur])).trans (hcogs j hj)⟩, hind, fun e he hs => hqueue.kept he hs,
      fun j => ⟨fun hj => ?_, (tasks j).2⟩⟩
    obtain ⟨hpc, hdly, hz, hc, hstack, haugs, haugd, hrep⟩ := hr.task j hj
    rw [(tasks j).1 hj]
    refine ⟨hpc, hdly, hz, hc, hstack, haugs, haugd, hrep, fun e he ht => hqueue.cancelled he (by rw [ht]; exact hj),
      fun h2 hl => ?_⟩
    obtain ⟨q1, e, hq, hlen, ht, hcan⟩ := hqueue.fetching h2 (by rw [hl]; exact hj)
    exact ⟨q1, e, hq, hlen, ht.trans hl, hcan⟩

end

end Sys2Proof.Machine
end

section
/-!
PROOFS. Jumps, thread switches, address instructions, the task stack and the AUG latches (44_branches.md).
-/

set_option Elab.async false

namespace Sys2Proof.Machine

open Sys2Proof

section
variable {s t : State} {o : Operands}

/-! ### Jumps -/

theorem take_branches_of {out : Out} {c : Cog} {p : Addr} {delayed : Bool} (he : out = t.take c p delayed) :
    Out.branches out t c p delayed := he ▸ State.take_branches t c p delayed 0

theorem jumpBig_branches {f : Big} {rel delayed : Bool} {i : Instr} (h : s.stage4 f.cond (.raw 0) (.raw 0) o t)
    (ha : t.task.augs = none) (he : exec i s = s.jumpBig f rel delayed) :
    Out.branches (exec i s) t t.cog (t.bigTarget f.n rel) delayed :=
  take_branches_of (he.trans ((State.conditional_stage4 h).trans (State.noAugs_eq true ha)))

theorem jumpReg_branches {f : SingleZC} {delayed : Bool} {i : Instr} (h : s.stage4 f.cond (.reg f.d) (.raw 0) o t)
    (he : exec i s = s.jumpReg f delayed) :
    Out.branches (exec i s) t (t.cog.setFlags f.wz f.wc (o.dv.getLsbD 31) (o.dv.getLsbD 30)) (bits o.dv 0 16) delayed :=
  take_branches_of (he.trans (State.withOperands_stage4 h))

/-- The low bits of a sum are the sum of the low bits. -/
theorem bits_low_add (x y : Word) : bits (x + y) 0 16 = bits x 0 16 + bits y 0 16 := by
  apply BitVec.eq_of_toNat_eq
  simp only [bits, BitVec.toNat_add, BitVec.extractLsb'_toNat, Nat.shiftRight_zero]
  omega

/-- A jump that a test decides. -/
theorem jumps_of {out : Out} {taken : Prop} {b : Bool} {c : Cog} {a : Addr} {delayed : Bool}
    (he : out = if b then t.take c a delayed else t.fallThrough c) (hb : b = true ↔ taken) :
    (taken → Out.branches out t c a delayed) ∧ (¬taken → Out.fallsThrough out t c) := by
  refine ⟨fun ht => ?_, fun hn => ?_⟩
  · rw [he, if_pos (hb.mpr ht)]
    exact State.take_branches _ _ _ _ _
  · rw [he, if_neg fun h => hn (hb.mp h)]
    exact State.fallThrough_falls _ _

theorem countJump_jumps {f : DualP} {count : Word → Word} {test : Word → Bool} {delayed : Bool} {i : Instr} {taken : Prop}
    (h : s.stage4 f.cond (.reg f.d) (sr f.i f.s) o t) (he : exec i s = s.countJump f count test delayed)
    (hb : test (count o.dv) = true ↔ taken) :
    (isWindow o.d = false →
        (taken → Out.branches (exec i s) t (t.cog.writeReg o.d (count o.dv)) (bits o.sv 0 16) delayed)
          ∧ (¬taken → Out.fallsThrough (exec i s) t (t.cog.writeReg o.d (count o.dv))))
      ∧ (isWindow o.d = true → exec i s = .refused .indirectWindow) := by
  have he' := he.trans (State.withOperands_stage4 h)
  refine ⟨fun hw => jumps_of (he'.trans (if_neg ?_)) hb, fun hw => he'.trans (if_pos hw)⟩
  rw [hw]
  decide

theorem testJump_jumps {f : DualP} {test : Word → Bool} {delayed : Bool} {i : Instr} {taken : Prop}
    (h : s.stage4 f.cond (.reg f.d) (sr f.i f.s) o t) (he : exec i s = s.testJump f test delayed)
    (hb : test o.dv = true ↔ taken) :
    (taken → Out.branches (exec i s) t t.cog (bits o.sv 0 16) delayed)
      ∧ (¬taken → Out.fallsThrough (exec i s) t t.cog) :=
  jumps_of (he.trans (State.withOperands_stage4 h)) hb

theorem pinJump_jumps {f : DualL} {level delayed : Bool} {i : Instr} {taken : Prop}
    (h : s.stage4 f.cond (dl f.l f.d) (sr f.i f.s) o t) (he : exec i s = s.pinJump f level delayed)
    (hb : t.pinIn t.cog (bits o.dv 0 7) = level ↔ taken) :
    (taken → Out.branches (exec i s) t t.cog (bits o.sv 0 16) delayed)
      ∧ (¬taken → Out.fallsThrough (exec i s) t t.cog) :=
  jumps_of (he.trans (State.withOperands_stage4 h)) (beq_iff_eq.trans hb)

theorem isZero_iff (v : Word) : Word.isZero v = true ↔ v = 0 := beq_iff_eq
theorem isNonzero_iff (v : Word) : Word.isNonzero v = true ↔ v ≠ 0 := bne_iff_ne

/-- Settles O38. -/
theorem jumpResults : Obligations.JumpResults := by
  refine ⟨⟨fun s t f o h ha => ?_, fun s t f o h => ?_, fun s t f o h => ?_⟩, fun s t f o h => ?_, fun s t f o h => ?_⟩
  · simp only [List.forall_mem_cons]
    exact ⟨(jumpBig_branches h ha (exec_jmpAbs s f) :), (jumpBig_branches h ha (exec_jmpRel s f) :),
      (jumpBig_branches h ha (exec_jmpdAbs s f) :), (jumpBig_branches h ha (exec_jmpdRel s f) :), List.forall_mem_nil _⟩
  · simp only [List.forall_mem_cons]
    exact ⟨jumpReg_branches h (exec_jmpReg s f), jumpReg_branches h (exec_jmpdReg s f), List.forall_mem_nil _⟩
  · rw [bits_low_add]
    exact take_branches_of (delayed := false) ((exec_jmplist s f).trans (State.withOperands_stage4 h))
  · have zero (v : Word) : Word.isZero v = true ↔ (v = 0 ↔ true = true) := by rw [isZero_iff, iff_true_right rfl]
    have nonzero (v : Word) : Word.isNonzero v = true ↔ (v = 0 ↔ false = true) := by
      rw [isNonzero_iff, iff_false_intro Bool.false_ne_true, iff_false]
    refine ⟨?_, testJump_jumps h (exec_jz s f) (isZero_iff _), testJump_jumps h (exec_jzd s f) (isZero_iff _),
      testJump_jumps h (exec_jnz s f) (isNonzero_iff _), testJump_jumps h (exec_jnzd s f) (isNonzero_iff _)⟩
    have count {i : Instr} {next : Word → Word} {test : Word → Bool} {delayed b : Bool}
        (he : exec i s = s.countJump f next test delayed) (hb : ∀ v, test v = true ↔ (v = 0 ↔ b = true)) :=
      countJump_jumps h he (hb (next o.dv))
    refine List.forall_mem_cons.mpr ⟨(count (exec_ijz s f) zero :), ?_⟩
    refine List.forall_mem_cons.mpr ⟨(count (exec_ijzd s f) zero :), ?_⟩
    refine List.forall_mem_cons.mpr ⟨(count (exec_ijnz s f) nonzero :), ?_⟩
    refine List.forall_mem_cons.mpr ⟨(count (exec_ijnzd s f) nonzero :), ?_⟩
    refine List.forall_mem_cons.mpr ⟨(count (exec_djz s f) zero :), ?_⟩
    refine List.forall_mem_cons.mpr ⟨(count (exec_djzd s f) zero :), ?_⟩
    refine List.forall_mem_cons.mpr ⟨(count (exec_djnz s f) nonzero :), ?_⟩
    exact List.forall_mem_cons.mpr ⟨(count (exec_djnzd s f) nonzero :), List.forall_mem_nil _⟩
  · exact ⟨pinJump_jumps h (exec_jp s f) Iff.rfl, pinJump_jumps h (exec_jpd s f) Iff.rfl,
      pinJump_jumps h (exec_jnp s f) (Bool.not_eq_true _).symm.to_iff, pinJump_jumps h (exec_jnpd s f) (Bool.not_eq_true _).symm.to_iff⟩

/-! ### The saved long -/

/-- The saved long of a call (R452): Z at bit 17, C at bit 16, the return address below. -/
theorem Task.saved_eq (k : Task) (delayed : Bool) : k.saved delayed
    = (if k.z then 0x20000 else 0) + (if k.c then 0x10000 else 0)
      + (k.pc + (if delayed then 4 else 1) : Addr).setWidth 32 := by
  have hr : (if delayed then k.pc + 4 else k.pc + 1 : Addr) = k.pc + (if delayed then 4 else 1) := by cases delayed <;> rfl
  rw [Task.saved, hr]
  generalize k.pc + (if delayed then 4 else 1) = r
  have hlt := r.isLt
  apply BitVec.eq_of_toNat_eq
  cases k.z <;> cases k.c <;>
    simp only [BitVec.ofNat_eq_ofNat, BitVec.toNat_setWidth, toNat_append_eq, BitVec.toNat_add, BitVec.toNat_ofBool, Bool.toNat_true,
      Bool.toNat_false, if_true, Bool.false_eq_true, if_false, BitVec.toNat_ofNat] <;> omega

/-! ### Thread switches -/

theorem jumpSwap_spec {f : Dual} {delayed : Bool} {i : Instr} (h : s.stage4 f.cond (.reg f.d) (sr f.i f.s) o t)
    (he : exec i s = s.jumpSwap f delayed) :
    let r : Addr := t.task.pc + (if delayed then 4 else 1)
    let v : Word := (if t.task.z then 0x20000 else 0) + (if t.task.c then 0x10000 else 0) + r.setWidth 32
    (isWindow o.d = false → Out.branches (exec i s) t
        ((t.cog.setFlags f.wz f.wc (o.sv.getLsbD 17) (o.sv.getLsbD 16)).writeReg o.d v) (bits o.sv 0 16) delayed)
      ∧ (isWindow o.d = true → exec i s = .refused .indirectWindow) := by
  intro r v
  have hv : t.task.saved delayed = v := Task.saved_eq _ _
  have he' := he.trans (State.withOperands_stage4 h)
  refine ⟨fun hw => ?_, fun hw => he'.trans (if_pos hw)⟩
  rw [← hv]
  refine take_branches_of (he'.trans (if_neg ?_))
  rw [hw]
  decide

/-- The operands of SWITCH: D is where INDB points, S the next, and INDB moves on (R180, R181). -/
theorem switch_operands (h : s.stage4 0b0011 (.reg 0x1F3) (.reg 0x1F3) o t) (he : s.enters) :
    o.d = s.cog.indb.ptr ∧ t.cog.indb.ptr = s.cog.indb.inc := by
  obtain ⟨-, rfl, rfl⟩ | ⟨w, hw, -, -⟩ := h
  · rw [State.cog_opened]
    exact ⟨rfl, rfl⟩
  · rw [he] at hw
    cases hw

/-- Settles O42. -/
theorem threadSwitchResults : Obligations.ThreadSwitchResults := by
  refine ⟨fun s t f o h => ⟨?_, ?_⟩, fun s t o h => ⟨switch_operands h, ?_, ?_⟩⟩
  · exact jumpSwap_spec h (exec_jmpsw s f)
  · exact jumpSwap_spec h (exec_jmpswd s f)
  · exact jumpSwap_spec (f := ⟨true, true, false, 0x3, 0x1F3, 0x1F3⟩) h (exec_switch s)
  · exact jumpSwap_spec (f := ⟨true, true, false, 0x3, 0x1F3, 0x1F3⟩) h (exec_switchd s)

/-! ### Addresses -/

/-- An instruction that writes D and no flag. -/
theorem DResult.holds.plain {g : DResult} {r : Word} (he : exec g.i s = t.finishD t.cog o.d r g.stall) (hr : g.r r)
    (hz : g.z r (zOf r)) (hc : g.c false) : g.holds s t o.d false false := by
  refine DResult.holds.of_putResult (a := .of r false) (he.trans ?_) ⟨hr, hz, hc⟩
  rw [State.putResult, Cog.setFlags_none]
  rfl

/-- The sum of LOCBYTE and its relatives is exact in 18 bits (U45). -/
theorem locate_word (x : Word) (free : BitVec 14) :
    let r : Word := (if x.toNat < 2 ^ 18 then 0 else free) ++ bits x 0 18
    bits r 0 18 = bits x 0 18 ∧ (x.toNat < 2 ^ 18 → r = x) := by
  refine ⟨?_, fun hx => ?_⟩
  · rw [bits_append_low _ _ (by decide), bits_all]
  · rw [if_pos hx]
    apply BitVec.eq_of_toNat_eq
    have hb : (bits x 0 18).toNat = x.toNat % 2 ^ 18 := by
      rw [bits, BitVec.extractLsb'_toNat, Nat.shiftRight_zero]
    rw [toNat_append_eq, hb, Nat.mod_eq_of_lt hx]
    exact Nat.zero_add _

theorem locate_holds {f : DualP} {shift : Nat} {g : DResult} (h : s.stage4 f.cond (.reg f.d) (sr f.i f.s) o t)
    (he : exec g.i s = s.locate f shift) (hs : g.stall = 0)
    (hr : ∀ r, (bits r 0 18 = bits ((o.dv <<< shift) + ((bits o.sv 0 16).setWidth 32 <<< 2)) 0 18
      ∧ (((o.dv <<< shift) + ((bits o.sv 0 16).setWidth 32 <<< 2)).toNat < 2 ^ 18 →
        r = (o.dv <<< shift) + ((bits o.sv 0 16).setWidth 32 <<< 2))) → g.r r)
    (hz : ∀ r, g.z r (zOf r)) (hc : g.c false) : g.holds s t o.d false false :=
  .plain (by rw [hs]; exact he.trans (State.withOperands_stage4 h)) (hr _ (locate_word _ (bits (Config.freeWord t.turn 1) 0 14)))
    (hz _) hc

/-- Settles O43. -/
theorem addressInstructionResults : Obligations.AddressInstructionResults := by
  refine ⟨fun s t f o h => ?_, fun s t f o h => ?_⟩
  · simp only [List.forall_mem_cons]
    exact ⟨.plain ((exec_locbase s f).trans (State.withOperands_stage4 h)) rfl (zOf_eq_decide _) trivial,
      locate_holds h (exec_locbyte s f) rfl (fun _ hr => hr) (fun r => zOf_eq_decide r) trivial,
      locate_holds h (exec_locword s f) rfl (fun _ hr => hr) (fun r => zOf_eq_decide r) trivial,
      locate_holds h (exec_loclong s f) rfl (fun _ hr => hr) (fun r => zOf_eq_decide r) trivial, List.forall_mem_nil _⟩
  · exact .plain ((exec_locinst s f).trans (State.withOperands_stage4 h)) rfl (zOf_eq_decide _) trivial

/-! ### The task stack -/

theorem pushTask_room {v : Word} {go : State → Out} (h : t.task.stack.length < 4) :
    t.pushTask v go = go (t.setCog (t.cog.setTask { t.task with stack := v :: t.task.stack })) := if_pos h

theorem pushTask_full {v : Word} {go : State → Out} (h : 4 ≤ t.task.stack.length) :
    t.pushTask v go = .fault .stackOverflow := if_neg (Nat.not_lt.mpr h)

theorem popTask_cons {v : Word} {rest : List Word} {go : Word → State → Out} (h : t.task.stack = v :: rest) :
    t.popTask go = go v (t.setCog (t.cog.setTask { t.task with stack := rest })) := by
  simp only [State.popTask, h]

theorem popTask_nil {go : Word → State → Out} (h : t.task.stack = []) : t.popTask go = .fault .stackUnderflow := by
  simp only [State.popTask, h]

/-- Ending in another cog of the same machine. -/
theorem State.ends_setCog (t : State) (c k : Cog) (stall : Nat) : (t.setCog c).ends k stall = t.ends k stall :=
  State.setCog_setCog _ _ _

/-- Settles O44. -/
theorem taskStackInstructions : Obligations.TaskStackInstructions := by
  refine ⟨fun s t f o h => ⟨fun hl => ?_, fun hl => ?_⟩, fun s t f o h => ⟨fun v rest hv => ?_, fun hv => ?_⟩⟩
  · rw [exec_push, execPush, State.withOperands_stage4 h, pushTask_room hl, State.finish_eq, State.cog_setCog,
      State.ends_setCog]
  · exact (exec_push s f).trans ((State.withOperands_stage4 h).trans (pushTask_full hl))
  · refine ⟨Config.freeBit t.turn 2, ?_⟩
    rw [exec_pop, execPop, State.withOperands_stage4 h, popTask_cons hv, ← State.ends_setCog t]
    have := State.putResult_delivers (t.setCog (t.cog.setTask { t.task with stack := rest })) o f.wz f.wc
      (Result.of v (Config.freeBit t.turn 2)) 0
    rw [State.wrote, State.cog_setCog] at this
    exact this
  · exact (exec_pop s f).trans ((State.withOperands_stage4 h).trans (popTask_nil hv))

/-! ### AUGS and AUGD -/

/-- The word of an AUG: its row, which of the two, and the 23 bits. -/
theorem aug_word (n : BitVec 23) (b : Bool) : (0b1111101#7 ++ ((BitVec.ofBool true ++ BitVec.ofBool b) ++ n) : BitVec 32)
    = Fields.join ⟨0b1111101#7, true, b, n.getLsbD 22, n.extractLsb' 18 4, n.extractLsb' 9 9, n.extractLsb' 0 9⟩ := by
  rw [Fields.join, Laws.join_aug n]
  apply BitVec.eq_of_toNat_eq
  simp only [toNat_append_eq]
  omega

theorem decode_augs (n : BitVec 23) : decode (0b1111101#7 ++ (0b10#2 ++ n)) = .ok (.augs n) :=
  (congrArg decode (aug_word n false)).trans ((Laws.RoundTrip.augs n).decode_encode rfl)

theorem decode_augd (n : BitVec 23) : decode (0b1111101#7 ++ (0b11#2 ++ n)) = .ok (.augd n) :=
  (congrArg decode (aug_word n true)).trans ((Laws.RoundTrip.augd n).decode_encode rfl)

section
variable (cond : BitVec 4) (du : DUse) (su : SUse) (f : RegAddr)

/-- Decoding leaves of the task what it is but for the latches used (R177, D19). -/
theorem State.task_opened (s : State) : (s.opened cond du su).task = { s.task with
    augs := match su with | .imm _ => none | .rel _ => none | _ => s.task.augs
    augd := match du with | .imm _ => none | _ => s.task.augd } := by
  rw [State.task_eq, State.cog_opened]
  exact Quad.get_set_same _ _ _

/-- The two halves of a relative address (R184, R482). -/
theorem State.operands_rel (s : State) : (s.operands cond du (.rel f)).sv
    = bits (extend s.task.augs f) 16 16 ++ relTarget s.task.pc s.task.augs f := rfl

end

/-- Settles O46. -/
theorem augLatches : Obligations.AugLatches := by
  refine ⟨fun s n => ⟨decode_augs n, decode_augd n, exec_augs s n, exec_augd s n⟩, fun s cond du su f => ?_⟩
  refine ⟨?_, ?_, ?_, ?_, ?_, ?_, ?_, ?_, ?_⟩
  · show extend s.task.augs f = _
    cases s.task.augs <;> rfl
  · show extend s.task.augd f = _
    cases s.task.augd <;> rfl
  · rw [State.operands_rel, bits_append_low _ _ (by decide), bits_all]
    cases s.task.augs <;> rfl
  · rw [State.operands_rel, bits_append_high _ _ (by decide), Nat.sub_self, bits_all]
    cases s.task.augs with
    | some a => rfl
    | none => exact bits_setWidth_high f (by decide)
  all_goals rw [State.task_opened]

/-! ### A pending AUG that is refused -/

theorem State.noAugs_refuses {go : Out} (h : t.task.augs ≠ none) : t.noAugs true go = .refused .augPending := by
  obtain ⟨a, ha⟩ := Option.ne_none_iff_exists'.mp h
  rw [State.noAugs, ha]
  rfl

theorem State.noAugd_refuses {go : Out} (h : t.task.augd ≠ none) : t.noAugd true go = .refused .augPending := by
  obtain ⟨a, ha⟩ := Option.ne_none_iff_exists'.mp h
  rw [State.noAugd, ha]
  rfl

/-- An instruction whose meaning asks first for no pending AUGS refuses one. -/
theorem refuses_augs {cond : BitVec 4} {du : DUse} {su : SUse} {i : Instr} {b : Bool} {body : Operands → State → Out}
    (h : s.stage4 cond du su o t) (ha : t.task.augs ≠ none) (hb : b = true)
    (he : exec i s = s.withOperands cond du su fun o s1 => s1.noAugs b (body o s1)) : exec i s = .refused .augPending := by
  subst hb
  exact he.trans ((State.withOperands_stage4 h).trans (State.noAugs_refuses ha))

theorem refuses_augs_conditional {cond : BitVec 4} {i : Instr} {body : Operands → State → Out}
    (h : s.stage4 cond (.raw 0) (.raw 0) o t) (ha : t.task.augs ≠ none)
    (he : exec i s = s.conditional cond fun o s1 => s1.noAugs true (body o s1)) : exec i s = .refused .augPending :=
  refuses_augs h ha rfl he

theorem refuses_augd {cond : BitVec 4} {du : DUse} {su : SUse} {i : Instr} {b : Bool} {body : Operands → State → Out}
    (h : s.stage4 cond du su o t) (ha : t.task.augd ≠ none) (hb : b = true)
    (he : exec i s = s.withOperands cond du su fun o s1 => s1.noAugd b (body o s1)) : exec i s = .refused .augPending := by
  subst hb
  exact he.trans ((State.withOperands_stage4 h).trans (State.noAugd_refuses ha))

/-- The D of a wide transfer and of SETDAC, as a bare field. -/
theorem rawD {l : Bool} (hl : l = true) (f : RegAddr) : hubD l f = .raw f ∧ dacD l f = .raw f := by
  subst hl
  exact ⟨rfl, rfl⟩

/-- Settles O48. -/
theorem pendingAugIsRefused : Obligations.PendingAugIsRefused := by
  refine ⟨fun s t f o hi ha => ⟨fun h => ?_, fun h => ?_⟩, fun s t f o hi ha => ⟨fun h => ?_, fun h => ?_⟩,
    fun s t f o ha h => ?_, fun s n i ha => ?_, fun s t f o hl ha h => ?_, fun s t n f o ha h => ?_⟩ <;>
    simp only [List.forall_mem_cons]
  · exact ⟨refuses_augs h ha hi (exec_rdbyte s f), refuses_augs h ha hi (exec_rdword s f),
      refuses_augs h ha hi (exec_rdlong s f), refuses_augs h ha hi (exec_rdbytec s f),
      refuses_augs h ha hi (exec_rdwordc s f), refuses_augs h ha hi (exec_rdlongc s f), List.forall_mem_nil _⟩
  · exact ⟨refuses_augs h ha hi (exec_rdaux s f), refuses_augs h ha hi (exec_rdauxr s f), List.forall_mem_nil _⟩
  · exact ⟨refuses_augs h ha hi (exec_wrbyte s f), refuses_augs h ha hi (exec_wrword s f),
      refuses_augs h ha hi (exec_wrlong s f), List.forall_mem_nil _⟩
  · exact ⟨refuses_augs h ha hi (exec_wraux s f), refuses_augs h ha hi (exec_wrauxr s f), List.forall_mem_nil _⟩
  · have big {i : Instr} {body : Operands → State → Out}
        (he : exec i s = s.conditional f.cond fun o s1 => s1.noAugs true (body o s1)) := refuses_augs_conditional h ha he
    exact ⟨big (exec_jmpAbs s f), big (exec_jmpRel s f),
      big (exec_jmpdAbs s f), big (exec_jmpdRel s f),
      big (exec_callAbs s f), big (exec_callRel s f),
      big (exec_calldAbs s f), big (exec_calldRel s f),
      big (exec_callaAbs s f), big (exec_callaRel s f),
      big (exec_calladAbs s f), big (exec_calladRel s f),
      big (exec_callbAbs s f), big (exec_callbRel s f),
      big (exec_callbdAbs s f), big (exec_callbdRel s f),
      big (exec_callxAbs s f), big (exec_callxRel s f),
      big (exec_callxdAbs s f), big (exec_callxdRel s f),
      big (exec_callyAbs s f), big (exec_callyRel s f),
      big (exec_callydAbs s f), big (exec_callydRel s f),
      big (exec_locptraAbs s f), big (exec_locptraRel s f),
      big (exec_locptrbAbs s f), big (exec_locptrbRel s f), List.forall_mem_nil _⟩
  · exact ⟨(exec_reps s n i).trans (State.noAugs_refuses ha), List.forall_mem_nil _⟩
  · have hw : s.stage4 f.cond (hubD f.l f.d) (.raw 0) o t := (rawD hl f.d).1 ▸ h
    have hd : s.stage4 f.cond (dacD f.l f.d) (.raw 0) o t := (rawD hl f.d).2 ▸ h
    exact ⟨refuses_augd hw ha hl (exec_rdwide s f), refuses_augd hw ha hl (exec_rdwidec s f),
      refuses_augd hw ha hl (exec_wrwide s f), refuses_augd hd ha hl (exec_setdac0 s f),
      refuses_augd hd ha hl (exec_setdac1 s f), refuses_augd hd ha hl (exec_setdac2 s f),
      refuses_augd hd ha hl (exec_setdac3 s f), List.forall_mem_nil _⟩
  · exact ⟨refuses_augd h ha rfl (exec_waitvidImm s n f), List.forall_mem_nil _⟩

end

end Sys2Proof.Machine
end

section
/-!
PROOFS. Calls and returns (44_branches.md).
-/

set_option Elab.async false

namespace Sys2Proof.Machine

open Sys2Proof

section
variable {s t u v : State} {o : Operands}

/-! ### A branch from a state whose cog has changed -/

theorem State.take_setCog (t : State) (c k : Cog) (p : Addr) (delayed : Bool) (stall : Nat) :
    (t.setCog c).take k p delayed stall = t.take k p delayed stall := by
  have redirect : (t.setCog c).redirect k k.cur p = t.redirect k k.cur p := rfl
  cases delayed
  · show (t.setCog c).branch k p stall = t.branch k p stall
    unfold State.branch
    rw [redirect, State.setCog_setCog]
  · show (t.setCog c).branchD k p stall = t.branchD k p stall
    unfold State.branchD
    rw [State.setCog_setCog]

/-! ### What a call saves -/

/-- A call whose saved long is `w`: where it goes, and the branch (R462 to R471). -/
def CallSaves (t : State) (o : Operands) (out : Out) (w : Word) (flags : Cog → Cog) (a : Addr) (delayed : Bool)
    (k : CallStack) : Prop :=
  let inHub (p : HubAddr) (c1 : Cog) : Prop := Out.inHubCycle out t o (∃ h,
    Out.branches out { t with hub := h } (flags c1) a delayed
      ∧ (0x00E00 ≤ p.toNat → h.mem.long (p.toNat / 4 * 4) = w)
      ∧ ∀ b, (b < p.toNat / 4 * 4 ∨ p.toNat / 4 * 4 + 4 ≤ b ∨ p.toNat < 0x00E00) → h.mem.byte b = t.hub.mem.byte b)
  let inAux (p : Byte) (c1 : Cog) : Prop :=
    (t.cog.xfr.usesAux = false → ∃ x, Out.branches out t (flags { c1 with aux := x }) a delayed
        ∧ ∀ b, auxRead x b = if b = p then w else auxRead t.cog.aux b)
      ∧ (t.cog.xfr.usesAux = true → out = .refused .auxBusy)
  match k with
  | .task =>
    (t.task.stack.length < 4 →
        Out.branches out t (flags (t.cog.setTask { t.task with stack := w :: t.task.stack })) a delayed)
      ∧ (4 ≤ t.task.stack.length → out = .fault .stackOverflow)
  | .hubA => inHub t.cog.ptra { t.cog with ptra := t.cog.ptra + 4 }
  | .hubB => inHub t.cog.ptrb { t.cog with ptrb := t.cog.ptrb + 4 }
  | .auxX => inAux t.cog.ptrx { t.cog with ptrx := t.cog.ptrx + 1 }
  | .auxY => inAux (255 - t.cog.ptry) { t.cog with ptry := t.cog.ptry + 1 }

/-- A long stored in hub memory, and every byte that stays (R462 to R469, D17). -/
theorem Hub.writeLong_spec (h : Hub) (p : HubAddr) (w : Word) :
    (0x00E00 ≤ p.toNat → (h.writeLong p w).mem.long (p.toNat / 4 * 4) = w)
      ∧ ∀ b, (b < p.toNat / 4 * 4 ∨ p.toNat / 4 * 4 + 4 ≤ b ∨ p.toNat < 0x00E00) →
        (h.writeLong p w).mem.byte b = h.mem.byte b := by
  have hp := p.isLt
  have hram : ramBase = 0x00E00 := rfl
  have hsize : hubSize = 0x40000 := rfl
  rw [Hub.writeLong_mem, alignLong]
  refine ⟨fun hl => Memory.long_setLong_same _ _ (by omega) (by omega), fun b hb => ?_⟩
  by_cases hrom : p.toNat < 0x00E00
  · rw [Memory.setLong_rom _ _ (by omega)]
  · exact Memory.byte_setLong_ne _ _ (by omega)

theorem pushOn_saves {out : Out} {w : Word} {flags : Cog → Cog} {a : Addr} {delayed : Bool} {go : State → Out}
    (hgo : ∀ h c, c.task.pc = t.task.pc →
      go (({ t with hub := h } : State).setCog c) = ({ t with hub := h } : State).take (flags c) a delayed)
    {k : CallStack} (he : out = t.pushOn o k w go) : CallSaves t o out w flags a delayed k := by
  have inHub {p : HubAddr} {c1 : Cog} (hpc : c1.task.pc = t.task.pc)
      (he : out = t.atHub o fun s2 => go (({ s2 with hub := s2.hub.writeLong p w } : State).setCog c1)) :
      Out.inHubCycle out t o (∃ h, Out.branches out { t with hub := h } (flags c1) a delayed
        ∧ (0x00E00 ≤ p.toNat → h.mem.long (p.toNat / 4 * 4) = w)
        ∧ ∀ b, (b < p.toNat / 4 * 4 ∨ p.toNat / 4 * 4 + 4 ≤ b ∨ p.toNat < 0x00E00) →
          h.mem.byte b = t.hub.mem.byte b) := by
    obtain ⟨hlong, hbytes⟩ := t.hub.writeLong_spec p w
    exact Out.inHubCycle_of_atHub he fun hout =>
      ⟨t.hub.writeLong p w, take_branches_of (hout.trans (hgo _ c1 hpc)), hlong, hbytes⟩
  have inAux {p : Byte} {c1 : Cog} (hpc : c1.task.pc = t.task.pc)
      (he : out = t.auxFree (go (t.setCog { c1 with aux := auxWrite t.cog.aux p w }))) :
      (t.cog.xfr.usesAux = false → ∃ x, Out.branches out t (flags { c1 with aux := x }) a delayed
          ∧ ∀ b, auxRead x b = if b = p then w else auxRead t.cog.aux b)
        ∧ (t.cog.xfr.usesAux = true → out = .refused .auxBusy) :=
    ⟨fun hx => ⟨_, take_branches_of (he.trans ((State.auxFree_eq hx).trans (hgo t.hub _ hpc))), auxRead_auxWrite _ _ _⟩,
      fun hx => he.trans (State.auxFree_busy hx)⟩
  cases k with
  | task =>
    exact ⟨fun hl => take_branches_of (he.trans ((pushTask_room hl).trans (hgo t.hub _ (by rw [Cog.task_setTask])))),
      fun hl => he.trans (pushTask_full hl)⟩
  | hubA => exact inHub (c1 := { t.cog with ptra := t.cog.ptra + 4 }) rfl he
  | hubB => exact inHub (c1 := { t.cog with ptrb := t.cog.ptrb + 4 }) rfl he
  | auxX => exact inAux (c1 := { t.cog with ptrx := t.cog.ptrx + 1 }) rfl he
  | auxY =>
    rw [State.pushOn, not_byte] at he
    exact inAux (c1 := { t.cog with ptry := t.cog.ptry + 1 }) rfl he

theorem callBig_saves {f : Big} {k : CallStack} {rel delayed : Bool} {i : Instr}
    (h : s.stage4 f.cond (.raw 0) (.raw 0) o t) (ha : t.task.augs = none) (he : exec i s = s.callBig f k rel delayed) :
    CallSaves t o (exec i s) (t.task.saved delayed) id (t.bigTarget f.n rel) delayed k :=
  pushOn_saves (go := fun s2 => s2.take s2.cog (s2.bigTarget f.n rel) delayed)
    (fun h c hpc => by
      rw [State.cog_setCog, State.take_setCog, State.bigTarget, State.task_setCog, hpc]
      rfl)
    (he.trans ((State.conditional_stage4 h).trans (State.noAugs_eq true ha)))

theorem callReg_saves {f : SingleZC} {k : CallStack} {delayed : Bool} {i : Instr}
    (h : s.stage4 f.cond (.reg f.d) (.raw 0) o t) (he : exec i s = s.callReg f k delayed) :
    CallSaves t o (exec i s) (t.task.saved delayed)
      (fun c => c.setFlags f.wz f.wc (o.dv.getLsbD 31) (o.dv.getLsbD 30)) (bits o.dv 0 16) delayed k :=
  pushOn_saves (go := fun s2 => s2.take (s2.cog.setFlags f.wz f.wc (o.dv.getLsbD 31) (o.dv.getLsbD 30)) (bits o.dv 0 16)
      delayed)
    (fun h c _ => by rw [State.cog_setCog, State.take_setCog]) (he.trans (State.withOperands_stage4 h))

/-- Settles O39. -/
theorem callResults : Obligations.CallResults := by
  refine ⟨fun s t f o h ha => ?_, fun s t f o h => ?_⟩
  · have big {k : CallStack} {i : Instr} {rel d : Bool} (he : exec i s = s.callBig f k rel d) :=
      Task.saved_eq t.task d ▸ callBig_saves h ha he
    refine List.forall_mem_cons.mpr ⟨⟨(big (exec_callAbs s f) :), (big (exec_callRel s f) :), (big (exec_calldAbs s f) :),
      (big (exec_calldRel s f) :)⟩, ?_⟩
    refine List.forall_mem_cons.mpr ⟨⟨(big (exec_callaAbs s f) :), (big (exec_callaRel s f) :),
      (big (exec_calladAbs s f) :), (big (exec_calladRel s f) :)⟩, ?_⟩
    refine List.forall_mem_cons.mpr ⟨⟨(big (exec_callbAbs s f) :), (big (exec_callbRel s f) :),
      (big (exec_callbdAbs s f) :), (big (exec_callbdRel s f) :)⟩, ?_⟩
    refine List.forall_mem_cons.mpr ⟨⟨(big (exec_callxAbs s f) :), (big (exec_callxRel s f) :),
      (big (exec_callxdAbs s f) :), (big (exec_callxdRel s f) :)⟩, ?_⟩
    exact List.forall_mem_cons.mpr ⟨⟨(big (exec_callyAbs s f) :), (big (exec_callyRel s f) :),
      (big (exec_callydAbs s f) :), (big (exec_callydRel s f) :)⟩, List.forall_mem_nil _⟩
  · have reg {k : CallStack} {i : Instr} {d : Bool} (he : exec i s = s.callReg f k d) :=
      Task.saved_eq t.task d ▸ callReg_saves h he
    refine List.forall_mem_cons.mpr ⟨⟨(reg (exec_callReg s f) :), (reg (exec_calldReg s f) :)⟩, ?_⟩
    refine List.forall_mem_cons.mpr ⟨⟨(reg (exec_callaReg s f) :), (reg (exec_calladReg s f) :)⟩, ?_⟩
    refine List.forall_mem_cons.mpr ⟨⟨(reg (exec_callbReg s f) :), (reg (exec_callbdReg s f) :)⟩, ?_⟩
    refine List.forall_mem_cons.mpr ⟨⟨(reg (exec_callxReg s f) :), (reg (exec_callxdReg s f) :)⟩, ?_⟩
    exact List.forall_mem_cons.mpr ⟨⟨(reg (exec_callyReg s f) :), (reg (exec_callydReg s f) :)⟩, List.forall_mem_nil _⟩

/-! ### What a return restores -/

/-- A return that takes the long `w` and leaves the stack as in `c1`. -/
def ReturnGoes (t : State) (f : Zero0ZC) (out : Out) (c1 : Cog) (w : Word) (delayed : Bool) (stall : Nat) : Prop :=
  Out.branches out t (c1.setFlags f.wz f.wc (w.getLsbD 17) (w.getLsbD 16)) (bits w 0 16) delayed stall

/-- A return by the stack it names (R472 to R481). -/
def ReturnTakes (t : State) (o : Operands) (f : Zero0ZC) (out : Out) (delayed : Bool) : CallStack → Prop
  | .task => (∀ w rest, t.task.stack = w :: rest →
        ReturnGoes t f out (t.cog.setTask { t.task with stack := rest }) w delayed 0)
      ∧ (t.task.stack = [] → out = .fault .stackUnderflow)
  | .hubA => Out.inHubCycle out t o (ReturnGoes t f out { t.cog with ptra := t.cog.ptra - 4 }
      (t.hub.mem.long ((t.cog.ptra - 4).toNat / 4 * 4)) delayed 2)
  | .hubB => Out.inHubCycle out t o (ReturnGoes t f out { t.cog with ptrb := t.cog.ptrb - 4 }
      (t.hub.mem.long ((t.cog.ptrb - 4).toNat / 4 * 4)) delayed 2)
  | .auxX => (t.cog.xfr.usesAux = false →
        ReturnGoes t f out { t.cog with ptrx := t.cog.ptrx - 1 } (auxRead t.cog.aux (t.cog.ptrx - 1)) delayed 0)
      ∧ (t.cog.xfr.usesAux = true → out = .refused .auxBusy)
  | .auxY => (t.cog.xfr.usesAux = false →
        ReturnGoes t f out { t.cog with ptry := t.cog.ptry - 1 } (auxRead t.cog.aux (255 - (t.cog.ptry - 1))) delayed 0)
      ∧ (t.cog.xfr.usesAux = true → out = .refused .auxBusy)

theorem ret_takes {f : Zero0ZC} {k : CallStack} {delayed : Bool} {i : Instr}
    (h : s.stage4 f.cond (.raw 0) (.raw 0) o t) (he : exec i s = s.ret f k delayed) :
    ReturnTakes t o f (exec i s) delayed k := by
  have goes {c1 : Cog} {w : Word} {stall : Nat}
      (he : exec i s = (t.setCog c1).take ((t.setCog c1).cog.setFlags f.wz f.wc (w.getLsbD 17) (w.getLsbD 16)) (bits w 0 16)
        delayed stall) : ReturnGoes t f (exec i s) c1 w delayed stall := by
    rw [State.cog_setCog, State.take_setCog] at he
    rw [he]
    exact State.take_branches _ _ _ _ _
  have he' := he.trans (State.conditional_stage4 h)
  cases k <;> rw [State.popFrom] at he'
  case task => exact ⟨fun w rest hw => goes (he'.trans (popTask_cons hw)), fun hw => he'.trans (popTask_nil hw)⟩
  case hubA => exact Out.inHubCycle_of_atHub he' fun hout => goes hout
  case hubB => exact Out.inHubCycle_of_atHub he' fun hout => goes hout
  case auxX => exact ⟨fun hx => goes (he'.trans (State.auxFree_eq hx)), fun hx => he'.trans (State.auxFree_busy hx)⟩
  case auxY =>
    dsimp only at he'
    rw [not_byte] at he'
    exact ⟨fun hx => goes (he'.trans (State.auxFree_eq hx)), fun hx => he'.trans (State.auxFree_busy hx)⟩

/-- Settles O40. -/
theorem returnResults : Obligations.ReturnResults := by
  intro s t f o h
  have ret {k : CallStack} {i : Instr} {d : Bool} (he : exec i s = s.ret f k d) := ret_takes h he
  obtain ⟨hret, hempty⟩ := (ret (exec_ret s f) :)
  obtain ⟨hretd, hemptyd⟩ := (ret (exec_retd s f) :)
  exact ⟨fun w rest hw => ⟨hret w rest hw, hretd w rest hw⟩, fun hw => ⟨hempty hw, hemptyd hw⟩,
    ⟨(ret (exec_reta s f) :), (ret (exec_retad s f) :)⟩, ⟨(ret (exec_retb s f) :), (ret (exec_retbd s f) :)⟩,
    ⟨(ret (exec_retx s f) :), (ret (exec_retxd s f) :)⟩, ⟨(ret (exec_rety s f) :), (ret (exec_retyd s f) :)⟩⟩

end

end Sys2Proof.Machine
end

section
/-!
PROOFS. A return undoes its call (44_branches.md, sections 2 and 3).
-/

set_option Elab.async false

namespace Sys2Proof.Machine

open Sys2Proof

section
variable {s t u v : State} {o : Operands}

/-! ### After a taken branch -/

theorem Out.branches.next {out : Out} {c : Cog} {p : Addr} {delayed : Bool} {stall : Nat}
    (h : Out.branches out t c p delayed stall) (he : out = .next u) : u = t.jumped c p delayed stall := by
  by_cases hd : c.task.dlyCount = 0
  · exact (Host.Outcome.next.inj ((h.1 hd).symm.trans he)).symm
  · exact absurd ((h.2 hd).symm.trans he) (by simp)

/-- What a taken branch leaves of a cog's pointers and AUX. -/
theorem State.jumped_pointers (t : State) (c : Cog) (p : Addr) (delayed : Bool) (stall : Nat) :
    let k := (t.jumped c p delayed stall).cog
    k.ptra = c.ptra ∧ k.ptrb = c.ptrb ∧ k.ptrx = c.ptrx ∧ k.ptry = c.ptry ∧ k.aux = c.aux := by
  intro k
  have hk : k = _ := State.cog_jumped t c p delayed stall
  rw [hk]
  cases delayed <;> exact ⟨rfl, rfl, rfl, rfl, rfl⟩

/-- What it leaves of the task that branches: its flags and stack, and the target. -/
theorem State.jumped_task (t : State) (c : Cog) (p : Addr) (delayed : Bool) (stall : Nat) :
    let k := (t.jumped c p delayed stall).cog.tasks.get c.cur
    k.z = c.task.z ∧ k.c = c.task.c ∧ k.stack = c.task.stack ∧ (delayed = false → k.pc = p)
      ∧ (delayed = true → k.dlyTarget = p ∧ k.dlyCount = 3) := by
  intro k
  have hk : k = _ := congrArg (fun x : Cog => x.tasks.get c.cur) (State.cog_jumped t c p delayed stall)
  cases delayed with
  | false =>
    obtain ⟨hpc, -, hz, hc, hstack, -⟩ := (Cog.Redirected.branch t c p).task c.cur (beq_self_eq_true _)
    rw [hk]
    exact ⟨hz, hc, hstack, fun _ => hpc, fun h => absurd h (by decide)⟩
  | true =>
    have hd : k = _ := hk.trans (c.task_delayed p)
    rw [hd]
    exact ⟨rfl, rfl, rfl, fun h => absurd h (by decide), fun _ => ⟨rfl, rfl⟩⟩

/-! ### The saved long and its parts -/

theorem Task.saved_parts (k : Task) (delayed : Bool) : (k.saved delayed).getLsbD 17 = k.z
    ∧ (k.saved delayed).getLsbD 16 = k.c ∧ bits (k.saved delayed) 0 16 = k.pc + (if delayed then 4 else 1) := by
  have hr : (if delayed then k.pc + 4 else k.pc + 1 : Addr) = k.pc + (if delayed then 4 else 1) := by cases delayed <;> rfl
  rw [Task.saved, hr]
  refine ⟨?_, ?_, ?_⟩
  · rw [BitVec.getLsbD_setWidth, BitVec.getLsbD_append]
    cases k.z <;> rfl
  · rw [BitVec.getLsbD_setWidth, BitVec.getLsbD_append, BitVec.getLsbD_append]
    cases k.c <;> rfl
  · rw [bits_setWidth_low _ (by decide) (by decide), bits_append_low _ _ (by decide), bits_append_low _ _ (by decide), bits_all]

/-! ### What a call leaves -/

/-- The stack after a call, seen from the state before it: the saved long `w`, and the pointer moved. -/
def CallLeft (s t : State) (w : Word) : CallStack → Prop
  | .task => (t.cog.tasks.get s.cog.cur).stack = w :: s.task.stack
  | .hubA => s.ownsHub = true → 0x00E00 ≤ s.cog.ptra.toNat →
      t.hub.mem.long (s.cog.ptra.toNat / 4 * 4) = w ∧ t.cog.ptra = s.cog.ptra + 4
  | .hubB => s.ownsHub = true → 0x00E00 ≤ s.cog.ptrb.toNat →
      t.hub.mem.long (s.cog.ptrb.toNat / 4 * 4) = w ∧ t.cog.ptrb = s.cog.ptrb + 4
  | .auxX => auxRead t.cog.aux s.cog.ptrx = w ∧ t.cog.ptrx = s.cog.ptrx + 1
  | .auxY => auxRead t.cog.aux (255 - s.cog.ptry) = w ∧ t.cog.ptry = s.cog.ptry + 1

/-- From what a call saves to the stack it leaves, in the terms of the state that it acts in. -/
theorem CallSaves.left {out : Out} {w : Word} {wz wc z b : Bool} {a : Addr} {delayed : Bool} {k : CallStack}
    (h : CallSaves t o out w (fun c => c.setFlags wz wc z b) a delayed k) (he : out = .next u) : CallLeft t u w k := by
  cases k with
  | task =>
    obtain ⟨hroom, hfull⟩ := h
    by_cases hl : t.task.stack.length < 4
    · have hu := (hroom hl).next he
      obtain ⟨-, -, hstack, -⟩ := State.jumped_task t
        ((t.cog.setTask { t.task with stack := w :: t.task.stack }).setFlags wz wc z b) a delayed 0
      rw [Cog.cur_setFlags, Cog.cur_setTask, ← hu, Cog.task_setFlags, Task.stack_setFlags, Cog.task_setTask] at hstack
      exact hstack
    · exact absurd ((hfull (Nat.not_lt.mp hl)).symm.trans he) (by simp)
  | hubA =>
    intro hown hram
    obtain ⟨m, hb, hlong, -⟩ := h.1 hown
    have hu := hb.next he
    rw [hu]
    exact ⟨hlong hram, (State.jumped_pointers _ _ _ _ _).1⟩
  | hubB =>
    intro hown hram
    obtain ⟨m, hb, hlong, -⟩ := h.1 hown
    have hu := hb.next he
    rw [hu]
    exact ⟨hlong hram, (State.jumped_pointers _ _ _ _ _).2.1⟩
  | auxX =>
    by_cases hx : t.cog.xfr.usesAux = true
    · exact absurd ((h.2 hx).symm.trans he) (by simp)
    · obtain ⟨x, hb, hread⟩ := h.1 ((Bool.not_eq_true _).mp hx)
      obtain ⟨-, -, hptrx, -, haux⟩ := State.jumped_pointers t
        (({ t.cog with aux := x, ptrx := t.cog.ptrx + 1 } : Cog).setFlags wz wc z b) a delayed 0
      rw [hb.next he]
      exact ⟨(congrArg (auxRead · t.cog.ptrx) haux).trans ((hread _).trans (if_pos rfl)), hptrx⟩
  | auxY =>
    by_cases hx : t.cog.xfr.usesAux = true
    · exact absurd ((h.2 hx).symm.trans he) (by simp)
    · obtain ⟨x, hb, hread⟩ := h.1 ((Bool.not_eq_true _).mp hx)
      obtain ⟨-, -, -, hptry, haux⟩ := State.jumped_pointers t
        (({ t.cog with aux := x, ptry := t.cog.ptry + 1 } : Cog).setFlags wz wc z b) a delayed 0
      rw [hb.next he]
      exact ⟨(congrArg (auxRead · (255 - t.cog.ptry)) haux).trans ((hread _).trans (if_pos rfl)), hptry⟩

/-- The same in the terms of the state before the instruction: decoding changes no stack. -/
theorem CallLeft.of_opened {cond : BitVec 4} {du : DUse} {su : SUse} {w : Word} {k : CallStack}
    (h : CallLeft (s.opened cond du su) t w k) : CallLeft s t w k := by
  have hcog : (s.opened cond du su).cog = s.cog.decoded cond du su := State.cog_opened
  cases k <;> simp only [CallLeft, hcog, State.task_opened_stack, State.ownsHub_opened] at h ⊢ <;> exact h

theorem Task.saved_opened (s : State) (cond : BitVec 4) (du : DUse) (su : SUse) (delayed : Bool) :
    (s.opened cond du su).task.saved delayed = s.task.saved delayed := by
  rw [State.task_opened]
  rfl

theorem State.executes.stage4 {cond : BitVec 4} {du : DUse} {su : SUse} (h : s.executes cond du su) :
    s.stage4 cond du su (s.operands cond du su) (s.opened cond du su) := .inl ⟨h, rfl, rfl⟩

theorem callBig_left {f : Big} {k : CallStack} {rel delayed : Bool} {i : Instr} (h : s.executes f.cond (.raw 0) (.raw 0))
    (he : exec i s = s.callBig f k rel delayed) (ht : exec i s = .next t) : CallLeft s t (s.task.saved delayed) k := by
  by_cases ha : (s.opened f.cond (.raw 0) (.raw 0)).task.augs = none
  · have hs := callBig_saves h.stage4 ha he
    rw [Task.saved_opened, show (id : Cog → Cog) = fun c => c.setFlags false false false false from
      funext fun c => (Cog.setFlags_none c _ _).symm] at hs
    exact (hs.left ht).of_opened
  · exact absurd ((he.trans ((State.conditional_stage4 h.stage4).trans (State.noAugs_refuses ha))).symm.trans ht) (by simp)

theorem callReg_left {f : SingleZC} {k : CallStack} {delayed : Bool} {i : Instr} (h : s.executes f.cond (.reg f.d) (.raw 0))
    (he : exec i s = s.callReg f k delayed) (ht : exec i s = .next t) : CallLeft s t (s.task.saved delayed) k := by
  have hs := callReg_saves h.stage4 he
  rw [Task.saved_opened] at hs
  exact (hs.left ht).of_opened

/-! ### What a return finds and leaves -/

/-- The stack that a return is to take the long `w` from. -/
def ReturnFinds (u : State) (w : Word) : CallStack → Prop
  | .task => ∃ rest, u.task.stack = w :: rest
  | .hubA => u.ownsHub = true ∧ u.hub.mem.long ((u.cog.ptra - 4).toNat / 4 * 4) = w
  | .hubB => u.ownsHub = true ∧ u.hub.mem.long ((u.cog.ptrb - 4).toNat / 4 * 4) = w
  | .auxX => auxRead u.cog.aux (u.cog.ptrx - 1) = w
  | .auxY => auxRead u.cog.aux (255 - (u.cog.ptry - 1)) = w

/-- The stack after a return. -/
def ReturnLeft (u v : State) : CallStack → Prop
  | .task => (v.cog.tasks.get u.cog.cur).stack = u.task.stack.tail
  | .hubA => v.cog.ptra = u.cog.ptra - 4
  | .hubB => v.cog.ptrb = u.cog.ptrb - 4
  | .auxX => v.cog.ptrx = u.cog.ptrx - 1
  | .auxY => v.cog.ptry = u.cog.ptry - 1

/-- The task after a return that restores flags and PC from `w`. -/
structure Task.Restored (k : Task) (w : Word) (delayed : Bool) : Prop where
  z : k.z = w.getLsbD 17
  c : k.c = w.getLsbD 16
  pc : delayed = false → k.pc = bits w 0 16
  target : delayed = true → k.dlyTarget = bits w 0 16 ∧ k.dlyCount = 3

theorem ReturnGoes.restored {g : Zero0ZC} {out : Out} {c1 : Cog} {w : Word} {delayed : Bool} {stall : Nat}
    (h : ReturnGoes t g out c1 w delayed stall) (he : out = .next v) (hz : g.wz = true) (hc : g.wc = true) :
    (v.cog.tasks.get c1.cur).Restored w delayed ∧ (v.cog.tasks.get c1.cur).stack = c1.task.stack := by
  have hv := Out.branches.next h he
  obtain ⟨kz, kc, kstack, kpc, kdly⟩ := State.jumped_task t
    (c1.setFlags g.wz g.wc (w.getLsbD 17) (w.getLsbD 16)) (bits w 0 16) delayed stall
  rw [Cog.cur_setFlags, ← hv] at kz kc kstack kpc kdly
  rw [Cog.task_setFlags] at kz kc kstack
  rw [hz] at kz
  rw [hc] at kc
  exact ⟨⟨kz, kc, kpc, kdly⟩, kstack⟩

theorem ReturnGoes.pointers {g : Zero0ZC} {out : Out} {c1 : Cog} {w : Word} {delayed : Bool} {stall : Nat}
    (h : ReturnGoes t g out c1 w delayed stall) (he : out = .next v) :
    v.cog.ptra = c1.ptra ∧ v.cog.ptrb = c1.ptrb ∧ v.cog.ptrx = c1.ptrx ∧ v.cog.ptry = c1.ptry := by
  obtain ⟨ha, hb, hx, hy, -⟩ := State.jumped_pointers t
    (c1.setFlags g.wz g.wc (w.getLsbD 17) (w.getLsbD 16)) (bits w 0 16) delayed stall
  rw [← Out.branches.next h he] at ha hb hx hy
  exact ⟨ha, hb, hx, hy⟩

theorem ReturnTakes.restored {g : Zero0ZC} {out : Out} {w : Word} {delayed : Bool} {k : CallStack}
    (h : ReturnTakes t o g out delayed k) (hf : ReturnFinds t w k) (he : out = .next v) (hz : g.wz = true)
    (hc : g.wc = true) : (v.cog.tasks.get t.cog.cur).Restored w delayed ∧ ReturnLeft t v k := by
  cases k with
  | task =>
    obtain ⟨rest, hstack⟩ := hf
    obtain ⟨hr, hs⟩ := (h.1 w rest hstack).restored he hz hc
    rw [Cog.cur_setTask, Cog.task_setTask] at hs
    refine ⟨hr, hs.trans ?_⟩
    rw [hstack]
    rfl
  | hubA =>
    obtain ⟨hown, rfl⟩ := hf
    exact ⟨((h.1 hown).restored he hz hc).1, ((h.1 hown).pointers he).1⟩
  | hubB =>
    obtain ⟨hown, rfl⟩ := hf
    exact ⟨((h.1 hown).restored he hz hc).1, ((h.1 hown).pointers he).2.1⟩
  | auxX =>
    subst hf
    by_cases hx : t.cog.xfr.usesAux = true
    · exact absurd ((h.2 hx).symm.trans he) (by simp)
    · have hgo := h.1 ((Bool.not_eq_true _).mp hx)
      exact ⟨(hgo.restored he hz hc).1, (hgo.pointers he).2.2.1⟩
  | auxY =>
    subst hf
    by_cases hx : t.cog.xfr.usesAux = true
    · exact absurd ((h.2 hx).symm.trans he) (by simp)
    · have hgo := h.1 ((Bool.not_eq_true _).mp hx)
      exact ⟨(hgo.restored he hz hc).1, (hgo.pointers he).2.2.2⟩

theorem ReturnFinds.opened {cond : BitVec 4} {w : Word} {k : CallStack} (h : ReturnFinds u w k) :
    ReturnFinds (u.opened cond (.raw 0) (.raw 0)) w k := by
  have hcog : (u.opened cond (.raw 0) (.raw 0)).cog = u.cog.decoded cond (.raw 0) (.raw 0) := State.cog_opened
  cases k <;> simp only [ReturnFinds, hcog, State.task_opened_stack, State.ownsHub_opened] at h ⊢ <;> exact h

theorem ReturnLeft.of_opened {cond : BitVec 4} {k : CallStack} (h : ReturnLeft (u.opened cond (.raw 0) (.raw 0)) v k) :
    ReturnLeft u v k := by
  have hcog : (u.opened cond (.raw 0) (.raw 0)).cog = u.cog.decoded cond (.raw 0) (.raw 0) := State.cog_opened
  cases k <;> simp only [ReturnLeft, hcog, State.task_opened_stack] at h ⊢ <;> exact h

theorem ret_restores {g : Zero0ZC} {k : CallStack} {delayed : Bool} {i : Instr} {w : Word}
    (h : u.executes g.cond (.raw 0) (.raw 0)) (he : exec i u = u.ret g k delayed) (hf : ReturnFinds u w k)
    (hv : exec i u = .next v) (hz : g.wz = true) (hc : g.wc = true) :
    (v.cog.tasks.get u.cog.cur).Restored w delayed ∧ ReturnLeft u v k := by
  obtain ⟨hr, hl⟩ := (ret_takes h.stage4 he).restored hf.opened hv hz hc
  rw [State.cog_opened] at hr
  exact ⟨hr, hl.of_opened⟩

/-! ### Call and return -/

/-- The stack that the call left stands in `u` (the hypothesis of a return). -/
def StackKept (s t u : State) : CallStack → Prop
  | .task => u.task.stack = (t.cog.tasks.get s.cog.cur).stack
  | .hubA => s.ownsHub = true ∧ u.ownsHub = true ∧ 0x00E00 ≤ s.cog.ptra.toNat ∧ u.hub.mem = t.hub.mem
      ∧ u.cog.ptra = t.cog.ptra
  | .hubB => s.ownsHub = true ∧ u.ownsHub = true ∧ 0x00E00 ≤ s.cog.ptrb.toNat ∧ u.hub.mem = t.hub.mem
      ∧ u.cog.ptrb = t.cog.ptrb
  | .auxX => u.cog.aux = t.cog.aux ∧ u.cog.ptrx = t.cog.ptrx
  | .auxY => u.cog.aux = t.cog.aux ∧ u.cog.ptry = t.cog.ptry

/-- The stack is as it was before the call. -/
def StackBack (s u v : State) : CallStack → Prop
  | .task => (v.cog.tasks.get u.cog.cur).stack = s.task.stack
  | .hubA => v.cog.ptra = s.cog.ptra
  | .hubB => v.cog.ptrb = s.cog.ptrb
  | .auxX => v.cog.ptrx = s.cog.ptrx
  | .auxY => v.cog.ptry = s.cog.ptry

theorem CallLeft.found {w : Word} {k : CallStack} (h : CallLeft s t w k) (hk : StackKept s t u k) : ReturnFinds u w k := by
  cases k with
  | task => exact ⟨_, hk.trans h⟩
  | hubA =>
    obtain ⟨hs, hu, hram, hmem, hptr⟩ := hk
    obtain ⟨hlong, hmoved⟩ := h hs hram
    refine ⟨hu, ?_⟩
    rw [hmem, hptr, hmoved, BitVec.add_sub_cancel, hlong]
  | hubB =>
    obtain ⟨hs, hu, hram, hmem, hptr⟩ := hk
    obtain ⟨hlong, hmoved⟩ := h hs hram
    refine ⟨hu, ?_⟩
    rw [hmem, hptr, hmoved, BitVec.add_sub_cancel, hlong]
  | auxX =>
    obtain ⟨haux, hptr⟩ := hk
    obtain ⟨hread, hmoved⟩ := h
    rw [ReturnFinds, haux, hptr, hmoved, BitVec.add_sub_cancel, hread]
  | auxY =>
    obtain ⟨haux, hptr⟩ := hk
    obtain ⟨hread, hmoved⟩ := h
    rw [ReturnFinds, haux, hptr, hmoved, BitVec.add_sub_cancel, hread]

theorem CallLeft.back {w : Word} {k : CallStack} (h : CallLeft s t w k) (hk : StackKept s t u k) (hl : ReturnLeft u v k) :
    StackBack s u v k := by
  cases k with
  | task => exact hl.trans (by rw [hk.trans h]; rfl)
  | hubA =>
    obtain ⟨hs, -, hram, -, hptr⟩ := hk
    exact hl.trans (by rw [hptr, (h hs hram).2, BitVec.add_sub_cancel])
  | hubB =>
    obtain ⟨hs, -, hram, -, hptr⟩ := hk
    exact hl.trans (by rw [hptr, (h hs hram).2, BitVec.add_sub_cancel])
  | auxX => exact hl.trans (by rw [hk.2, h.2, BitVec.add_sub_cancel])
  | auxY => exact hl.trans (by rw [hk.2, h.2, BitVec.add_sub_cancel])

/-- A return of the stack that a call left gives the caller back. -/
theorem CallLeft.undone {g : Zero0ZC} {k : CallStack} {ret retd : Instr} {delayed : Bool}
    (h : CallLeft s t (s.task.saved delayed) k) (hk : StackKept s t u k) (hu : u.executes g.cond (.raw 0) (.raw 0))
    (hz : g.wz = true) (hc : g.wc = true) (hret : exec ret u = u.ret g k false) (hretd : exec retd u = u.ret g k true) :
    let back := v.cog.tasks.get u.cog.cur
    let behind : Addr := s.task.pc + (if delayed then 4 else 1)
    (exec ret u = .next v → back.pc = behind ∧ back.z = s.task.z ∧ back.c = s.task.c ∧ StackBack s u v k)
      ∧ (exec retd u = .next v →
          back.dlyTarget = behind ∧ back.dlyCount = 3 ∧ back.z = s.task.z ∧ back.c = s.task.c ∧ StackBack s u v k) := by
  intro back behind
  obtain ⟨sz, sc, spc⟩ := s.task.saved_parts delayed
  refine ⟨fun hv => ?_, fun hv => ?_⟩
  · obtain ⟨hr, hl⟩ := ret_restores hu hret (h.found hk) hv hz hc
    exact ⟨(hr.pc rfl).trans spc, hr.z.trans sz, hr.c.trans sc, h.back hk hl⟩
  · obtain ⟨hr, hl⟩ := ret_restores hu hretd (h.found hk) hv hz hc
    obtain ⟨htarget, hcount⟩ := hr.target rfl
    exact ⟨htarget.trans spc, hcount, hr.z.trans sz, hr.c.trans sc, h.back hk hl⟩

/-- Settles O41. -/
theorem returnUndoesCall : Obligations.ReturnUndoesCall := by
  intro s t u v f h g hu hz hc caller back undoes task hubA hubB auxX auxY
  refine ⟨fun hs => ?_, fun hs => ?_⟩
  · have left {k : CallStack} {i : Instr} {rel d : Bool} (he : exec i s = s.callBig f k rel d) (ht : exec i s = .next t) :=
      callBig_left hs he ht
    have all (k : CallStack) {ret retd abs rel dabs drel : Instr} (hret : exec ret u = u.ret g k false)
        (hretd : exec retd u = u.ret g k true) (h1 : exec abs s = s.callBig f k false false)
        (h2 : exec rel s = s.callBig f k true false) (h3 : exec dabs s = s.callBig f k false true)
        (h4 : exec drel s = s.callBig f k true true) :
        undoes ret retd (StackKept s t u k) (StackBack s u v k) [(abs, false), (rel, false), (dabs, true), (drel, true)] := by
      intro c hmem ht hk
      simp only [List.mem_cons, List.not_mem_nil, or_false] at hmem
      rcases hmem with rfl | rfl | rfl | rfl
      · exact (left h1 ht).undone hk hu hz hc hret hretd
      · exact (left h2 ht).undone hk hu hz hc hret hretd
      · exact (left h3 ht).undone hk hu hz hc hret hretd
      · exact (left h4 ht).undone hk hu hz hc hret hretd
    exact ⟨all .task (exec_ret u g) (exec_retd u g) (exec_callAbs s f) (exec_callRel s f) (exec_calldAbs s f)
        (exec_calldRel s f),
      all .hubA (exec_reta u g) (exec_retad u g) (exec_callaAbs s f) (exec_callaRel s f) (exec_calladAbs s f)
        (exec_calladRel s f),
      all .hubB (exec_retb u g) (exec_retbd u g) (exec_callbAbs s f) (exec_callbRel s f) (exec_callbdAbs s f)
        (exec_callbdRel s f),
      all .auxX (exec_retx u g) (exec_retxd u g) (exec_callxAbs s f) (exec_callxRel s f) (exec_callxdAbs s f)
        (exec_callxdRel s f),
      all .auxY (exec_rety u g) (exec_retyd u g) (exec_callyAbs s f) (exec_callyRel s f) (exec_callydAbs s f)
        (exec_callydRel s f)⟩
  · have both (k : CallStack) {ret retd call calld : Instr} (hret : exec ret u = u.ret g k false)
        (hretd : exec retd u = u.ret g k true) (h1 : exec call s = s.callReg h k false)
        (h2 : exec calld s = s.callReg h k true) :
        undoes ret retd (StackKept s t u k) (StackBack s u v k) [(call, false), (calld, true)] := by
      intro c hmem ht hk
      simp only [List.mem_cons, List.not_mem_nil, or_false] at hmem
      rcases hmem with rfl | rfl
      · exact (callReg_left hs h1 ht).undone hk hu hz hc hret hretd
      · exact (callReg_left hs h2 ht).undone hk hu hz hc hret hretd
    exact ⟨both .task (exec_ret u g) (exec_retd u g) (exec_callReg s h) (exec_calldReg s h),
      both .hubA (exec_reta u g) (exec_retad u g) (exec_callaReg s h) (exec_calladReg s h),
      both .hubB (exec_retb u g) (exec_retbd u g) (exec_callbReg s h) (exec_callbdReg s h),
      both .auxX (exec_retx u g) (exec_retxd u g) (exec_callxReg s h) (exec_callxdReg s h),
      both .auxY (exec_rety u g) (exec_retyd u g) (exec_callyReg s h) (exec_callydReg s h)⟩

end

end Sys2Proof.Machine
end

section
/-!
PROOFS. Multiplier, divider, square rooter, CORDIC engine and accumulators (46_math_engines.md).
-/

set_option Elab.async false

namespace Sys2Proof.Machine

open Sys2Proof

/-! ### Products, quotients and roots -/

theorem signExtend_mul {n w : Nat} (x y : BitVec n) :
    x.signExtend w * y.signExtend w = BitVec.ofInt w (x.toInt * y.toInt) := (BitVec.ofInt_mul _ _).symm

theorem setWidth_mul {n w : Nat} (x y : BitVec n) :
    x.setWidth w * y.setWidth w = BitVec.ofNat w (x.toNat * y.toNat) := by
  rw [BitVec.ofNat_mul, BitVec.ofNat_toNat, BitVec.ofNat_toNat]

theorem signedDivide_eq (turn op : Nat) (n : BitVec 64) (m : Word) (hm : m.toInt ≠ 0)
    (hlo : -2 ^ 31 ≤ n.toInt.tdiv m.toInt) (hhi : n.toInt.tdiv m.toInt < 2 ^ 31) :
    (signedDivide turn op n m).1 = BitVec.ofInt 32 (n.toInt.tdiv m.toInt)
      ∧ (signedDivide turn op n m).2 = BitVec.ofInt 32 (n.toInt.tmod m.toInt) := by
  have h0 : m ≠ 0 := fun e => hm (by rw [e]; rfl)
  have hfits : ¬((decide (m = 0) || decide (n.toInt.tdiv m.toInt < -(2 ^ 31)) || decide (2 ^ 31 ≤ n.toInt.tdiv m.toInt)) = true) := by
    simp only [Bool.or_eq_true, decide_eq_true_eq, not_or]
    exact ⟨⟨h0, by omega⟩, by omega⟩
  rw [signedDivide]
  rw [if_neg hfits]
  exact ⟨rfl, rfl⟩

theorem unsignedDivide_eq (turn op : Nat) (n : BitVec 64) (m : Word) (hm : (m.toNat : Int) ≠ 0)
    (hhi : (n.toNat : Int).tdiv m.toNat < 2 ^ 32) :
    (unsignedDivide turn op n m).1 = BitVec.ofInt 32 ((n.toNat : Int).tdiv m.toNat)
      ∧ (unsignedDivide turn op n m).2 = BitVec.ofInt 32 ((n.toNat : Int).tmod m.toNat) := by
  have h0 : m ≠ 0 := fun e => hm (by rw [e]; rfl)
  rw [← Int.ofNat_tdiv] at hhi
  have hfits : ¬((decide (m = 0) || decide (2 ^ 32 ≤ n.toNat / m.toNat)) = true) := by
    simp only [Bool.or_eq_true, decide_eq_true_eq, not_or]
    exact ⟨h0, by omega⟩
  rw [← Int.ofNat_tdiv, ← Int.ofNat_tmod, BitVec.ofInt_natCast, BitVec.ofInt_natCast, unsignedDivide]
  rw [if_neg hfits]
  exact ⟨rfl, rfl⟩

/-- The bit-by-bit root: what it has so far is not above the root, and the bits to come reach it. -/
theorem rootFrom_eq (v : Nat) : ∀ (k r : Nat), r * r ≤ v → v < (r + 2 ^ k) * (r + 2 ^ k) → rootFrom v r k = Nat.sqrt v
  | 0, r, hlo, hhi => Nat.eq_sqrt.mpr ⟨hlo, hhi⟩
  | k + 1, r, hlo, hhi => by
    rw [rootFrom]
    split_ifs with h
    · refine rootFrom_eq v k _ h ?_
      rwa [Nat.add_assoc, ← Nat.two_mul, ← Nat.pow_succ']
    · exact rootFrom_eq v k r hlo (Nat.not_le.mp h)

theorem floorRoot_eq {v : Nat} (h : v < 2 ^ 64) : floorRoot v = Nat.sqrt v :=
  rootFrom_eq v 32 0 (Nat.zero_le v) (by rw [Nat.zero_add]; exact h)

/-- A square root: the floor or one more, and exact for a square (R737, U51). -/
theorem squareRoot_spec (turn : Nat) (v : BitVec 64) {width : Nat} (hw : width ≤ 32) :
    ((squareRoot turn v width).toNat = Nat.sqrt v.toNat ∨ (squareRoot turn v width).toNat = Nat.sqrt v.toNat + 1)
      ∧ (Nat.sqrt v.toNat * Nat.sqrt v.toNat = v.toNat → (squareRoot turn v width).toNat = Nat.sqrt v.toNat) := by
  have hroot : Nat.sqrt v.toNat < 2 ^ 32 := Nat.sqrt_lt.mpr v.isLt
  have hpow : 2 ^ width ≤ 2 ^ 32 := Nat.pow_le_pow_right (by decide) hw
  rw [squareRoot]
  rw [floorRoot_eq v.isLt]
  split_ifs with hup
  · simp only [Bool.and_eq_true, decide_eq_true_eq] at hup
    obtain ⟨⟨hne, hlt⟩, -⟩ := hup
    exact ⟨.inr (Nat.mod_eq_of_lt (by omega)), fun he => absurd he hne⟩
  · exact ⟨.inl (Nat.mod_eq_of_lt hroot), fun _ => Nat.mod_eq_of_lt hroot⟩

section
variable {s t : State} {o : Operands}

/-! ### Starting an engine -/

theorem engineFree_spec {out : Out} {left : MathUnit → Nat} {p : MathUnit → Prop} {u : MathUnit}
    (he : out = t.engineFree left (t.finish (t.cog.withMath u))) (hp : p u) :
    (left t.cog.math = 0 → ∃ u, p u ∧ out = .next (t.ends { t.cog with math := u } 0))
      ∧ (left t.cog.math ≠ 0 → out = .refused .engineBusy) :=
  ⟨fun h0 => ⟨u, hp, he.trans (if_neg (not_not_intro h0))⟩, fun h => he.trans (if_pos h)⟩

theorem startL_spec {f : DualL} {left : MathUnit → Nat} {g : Operands → State → MathUnit} {p : MathUnit → Prop} {i : Instr}
    (h : s.stage4 f.cond (dl f.l f.d) (si f.i f.s) o t) (he : exec i s = s.startL f left g) (hp : p (g o t)) :
    (left t.cog.math = 0 → ∃ u, p u ∧ exec i s = .next (t.ends { t.cog with math := u } 0))
      ∧ (left t.cog.math ≠ 0 → exec i s = .refused .engineBusy) :=
  engineFree_spec (he.trans (State.withOperands_stage4 h)) hp

theorem start1_spec {f : SingleL} {left : MathUnit → Nat} {g : Word → State → MathUnit} {p : MathUnit → Prop} {i : Instr}
    (h : s.stage4 f.cond (dl f.l f.d) (.raw 0) o t) (he : exec i s = s.start1 f left g) (hp : p (g o.dv t)) :
    (left t.cog.math = 0 → ∃ u, p u ∧ exec i s = .next (t.ends { t.cog with math := u } 0))
      ∧ (left t.cog.math ≠ 0 → exec i s = .refused .engineBusy) :=
  engineFree_spec (he.trans (State.withOperands_stage4 h)) hp

/-- Settles O49. -/
theorem engineStartResults : Obligations.EngineStartResults := by
  refine ⟨fun s t f o h => ⟨?_, ?_, ?_, ?_, ?_, ?_, ?_, ?_⟩, fun s t f o h => ⟨?_, ?_⟩⟩
  · refine startL_spec (left := MathUnit.mulLeft) h (exec_mul32 s f) ?_
    dsimp only
    rw [signExtend_mul]
  · refine startL_spec (left := MathUnit.mulLeft) h (exec_mul32u s f) ?_
    dsimp only
    rw [setWidth_mul]
  · refine startL_spec (left := MathUnit.divLeft) h (exec_div32 s f) ⟨_, _, _, rfl, fun hm hlo hhi => ?_⟩
    have hN : (o.dv.signExtend 64).toInt = o.dv.toInt := BitVec.toInt_signExtend_of_le (by decide)
    have := signedDivide_eq t.turn 0 (o.dv.signExtend 64) o.sv hm (by rwa [hN]) (by rwa [hN])
    rwa [hN] at this
  · refine startL_spec (left := MathUnit.divLeft) h (exec_div32u s f) ⟨_, _, _, rfl, fun hm _ hhi => ?_⟩
    have hN : (o.dv.setWidth 64).toNat = o.dv.toNat := BitVec.toNat_setWidth_of_le (by decide)
    have := unsignedDivide_eq t.turn 1 (o.dv.setWidth 64) o.sv hm (by rwa [hN])
    rwa [hN] at this
  · exact startL_spec (left := MathUnit.divLeft) h (exec_div64 s f)
      ⟨_, _, rfl, fun hm hlo hhi => signedDivide_eq t.turn 2 _ _ hm hlo hhi⟩
  · exact startL_spec (left := MathUnit.divLeft) h (exec_div64u s f)
      ⟨_, _, rfl, fun hm _ hhi => unsignedDivide_eq t.turn 3 _ _ hm hhi⟩
  · exact startL_spec (left := MathUnit.divLeft) h (exec_frac s f) ⟨_, _, _, rfl, fun hlt => if_pos hlt⟩
  · exact startL_spec (left := MathUnit.sqrtLeft) h (exec_sqrt64 s f) ⟨_, rfl, squareRoot_spec t.turn _ le_rfl⟩
  · exact start1_spec (left := MathUnit.divLeft) h (exec_div64d s f) rfl
  · refine start1_spec (left := MathUnit.sqrtLeft) h (exec_sqrt32 s f) ⟨_, rfl, ?_⟩
    have hv : (o.dv.setWidth 64).toNat = o.dv.toNat := BitVec.toNat_setWidth_of_le (by decide)
    have := squareRoot_spec t.turn (o.dv.setWidth 64) (width := 16) (by decide)
    rwa [hv] at this

/-! ### CORDIC -/

/-- A result kept within a bound that is itself a 32-bit number. -/
theorem within_natAbs {b : Nat} (hb : (BitVec.ofNat 32 b).toInt = b) (hn : (-(BitVec.ofNat 32 b)).toInt = -b) (r : Word) :
    (within b r).toInt.natAbs ≤ b := by
  unfold within
  split_ifs with h1 h2
  · rw [hb, Int.natAbs_natCast]
  · rw [hn, Int.natAbs_neg, Int.natAbs_natCast]
  · omega

theorem sincosImm_natAbs {qi : BitVec 6} {n : Word} {b : Nat} (hq : qi.getLsbD 5 = false) (hs : sincosBound n.toNat = b)
    (hb : (BitVec.ofNat 32 b).toInt = b) (hn : (-(BitVec.ofNat 32 b)).toInt = -b) (angle : Word) :
    (sincosImm qi angle n).1.toInt.natAbs ≤ b ∧ (sincosImm qi angle n).2.toInt.natAbs ≤ b := by
  rw [sincosImm]
  rw [hq, hs]
  exact ⟨within_natAbs hb hn _, within_natAbs hb hn _⟩

theorem sincosClocks_circular {qi : BitVec 6} (hq : qi.getLsbD 5 = false) (n extra : Nat) :
    sincosClocks qi n extra = if (bits qi 0 5).toNat = 0 then 2 + n else 2 + (bits qi 0 5).toNat := by
  rw [sincosClocks]
  rw [hq]
  rfl

theorem sincosClocks_hyperbolic {qi : BitVec 6} (hq : qi.getLsbD 5 = true) (n extra : Nat) :
    ((bits qi 0 5).toNat ≠ 0 → sincosClocks qi n extra = 1 + (bits qi 0 5).toNat + stepH (bits qi 0 5).toNat)
      ∧ ((bits qi 0 5).toNat = 0 → 1 ≤ n → n ≤ 31 → sincosClocks qi n extra = 1 + n + stepH n) := by
  rw [sincosClocks]
  rw [if_pos hq]
  refine ⟨fun h0 => if_neg h0, fun h0 h1 h31 => ?_⟩
  have hno : ¬((n == 0 || decide (31 < n)) = true) := by
    simp only [Bool.or_eq_true, beq_iff_eq, decide_eq_true_eq]
    omega
  rw [if_pos h0]
  exact congrArg (1 + n + ·) (if_neg hno)

/-- QLOG and QEXP under QI = 0 give the rows of R746. -/
theorem logExp_rows (c : LogExp) {v l e : Word} (hl : (v, l) ∈ logTable) (he : (l, e) ∈ expTable) :
    c.log v = l ∧ c.exp l = e := ⟨c.logRows _ hl, c.expRows _ he⟩

/-- The rows of R746 as the obligation lists them. -/
theorem cordicRows : ∀ e ∈ ([(0, 0, 1), (1, 0, 1), (2, 0x08000000, 2), (3, 0x0CAE00D2, 3), (4, 0x10000000, 4), (5, 0x12934F09, 5),
    (0x07ADCBD8, 0xD786F595, 0x07ADCBD9), (0x20000000, 0xE8000000, 0x20000000), (0x40000000, 0xF0000000, 0x40000000),
    (0x80000000, 0xF8000000, 0x80000000), (0xFFFFFFFF, 0xFFFFFFFF, 0xFFFFFFE9)] : List (Word × Word × Word)),
    (e.1, e.2.1) ∈ logTable ∧ (e.2.1, e.2.2) ∈ expTable := by
  simp only [List.forall_mem_cons]
  refine ⟨?_, ?_, ?_, ?_, ?_, ?_, ?_, ?_, ?_, ?_, ?_, List.forall_mem_nil _⟩ <;> simp [logTable, expTable]

/-- Settles O50. -/
theorem cordicStartResults : Obligations.CordicStartResults := by
  let c : LogExp := @Config.logExp ⟨.witness⟩
  refine ⟨⟨c.log, c.exp, fun e he => ?_, c.undoes, fun s t f o h => ⟨?_, ?_, ?_, ?_⟩⟩, fun s t f o h => ⟨?_, ?_, ?_⟩⟩
  · obtain ⟨hl, hx⟩ := cordicRows e he
    exact logExp_rows c hl hx
  · exact start1_spec (left := MathUnit.qLeft) h (exec_setqi s f) rfl
  · exact start1_spec (left := MathUnit.qLeft) h (exec_setqz s f) rfl
  · exact start1_spec (left := MathUnit.qLeft) h (exec_qlog s f) ⟨_, _, _, rfl, fun hq => if_pos hq⟩
  · exact start1_spec (left := MathUnit.qLeft) h (exec_qexp s f) ⟨_, _, _, rfl, fun hq => if_pos hq⟩
  · exact startL_spec (left := MathUnit.qLeft) h (exec_qarctan s f) ⟨_, _, _, rfl⟩
  · exact startL_spec (left := MathUnit.qLeft) h (exec_qrotate s f) ⟨_, _, _, rfl⟩
  · refine startL_spec (left := MathUnit.qLeft) h (exec_qsincos s f) ⟨_, _, _, _, rfl, fun hi => ?_, fun hi hq => ?_,
      fun hi hq h0 => ?_, fun hi ha hq hv => ?_, fun hi ha hq hv => ?_, fun hi hq h0 h1 h31 => ?_⟩ <;> rw [hi]
    · rfl
    · exact sincosClocks_circular hq _ _
    · exact (sincosClocks_hyperbolic hq _ _).1 h0
    · rw [ha, hv]
      exact sincosImm_natAbs hq (by rw [hv]; decide) (by decide) (by decide) _
    · rw [ha, hv]
      exact sincosImm_natAbs hq (by rw [hv]; decide) (by decide) (by decide) _
    · exact (sincosClocks_hyperbolic hq _ _).2 h0 h1 h31

/-! ### Reading results -/

theorem readResult_whenReady {f : SingleZC} {left : MathUnit → Nat} {value : MathUnit → Word} {i : Instr}
    (h : s.stage4 f.cond (.reg f.d) (.raw 0) o t) (he : exec i s = s.readResult f left value) :
    Out.whenReady (exec i s) t o (left t.cog.math == 0) (∃ c, Out.delivers (exec i s) o.d
      (t.wrote o.d (value t.cog.math) f.wz f.wc (decide (value t.cog.math = 0)) c 0)) := by
  rw [he, State.readResult, State.withOperands_stage4 h]
  refine State.waitFor_whenReady fun hr => ⟨Config.freeBit t.turn 2, ?_⟩
  rw [hr]
  exact State.putResult_delivers _ _ _ _ _ _

/-- Settles O51. -/
theorem engineResultReads : Obligations.EngineResultReads := by
  intro s t f o h
  have read {left : MathUnit → Nat} {value : MathUnit → Word} {i : Instr} (he : exec i s = s.readResult f left value) :=
    readResult_whenReady h he
  simp only [List.forall_mem_cons]
  exact ⟨(read (exec_getmull s f) :), (read (exec_getmulh s f) :), (read (exec_getdivq s f) :), (read (exec_getdivr s f) :),
    (read (exec_getsqrt s f) :), (read (exec_getqx s f) :), (read (exec_getqy s f) :), (read (exec_getqz s f) :),
    List.forall_mem_nil _⟩

/-! ### Accumulators -/

theorem getLsbD_sshiftRight64 (a : BitVec 64) {n k : Nat} (h : k < 64) :
    (a.sshiftRight n).getLsbD k = a.getLsbD (min (k + n) 63) := by
  rw [BitVec.getLsbD_sshiftRight, BitVec.msb_eq_getLsbD_last]
  by_cases hb : n + k < 64
  · simp only [show ¬64 ≤ k by omega, hb, decide_false, Bool.not_false, Bool.true_and, if_true,
      show min (k + n) 63 = n + k by omega]
  · simp only [show ¬64 ≤ k by omega, hb, decide_false, Bool.not_false, Bool.true_and, if_false,
      show min (k + n) 63 = 64 - 1 by omega]

theorem accL_stage4 {f : DualL} {g : Word → Word → MathUnit → MathUnit} {i : Instr}
    (h : s.stage4 f.cond (dl f.l f.d) (si f.i f.s) o t) (he : exec i s = s.accL f g) :
    exec i s = .next (t.ends { t.cog with math := g o.dv o.sv t.cog.math } 0) := he.trans (configLS_stage4 h)

/-- What stalls behind a MACA or MACB (R770). -/
theorem afterMac_spec {out go : Out} (he : out = t.afterMac o go) :
    (t.cog.math.macLeft = 0 → out = go) ∧ (t.cog.math.macLeft ≠ 0 → out = .next (t.waits o false)) :=
  ⟨fun h => he.trans (if_pos h), fun h => he.trans (if_neg h)⟩

theorem shiftAcc_spec {f : SingleL} {g : Nat → MathUnit → MathUnit} {i : Instr}
    (h : s.stage4 f.cond (dl f.l f.d) (.raw 0) o t) (he : exec i s = s.shiftAcc f g) :
    (t.cog.math.macLeft = 0 → exec i s = .next (t.ends { t.cog with math := g (bits o.dv 0 6).toNat t.cog.math } 0))
      ∧ (t.cog.math.macLeft ≠ 0 → exec i s = .next (t.waits o false)) :=
  afterMac_spec (he.trans (State.withOperands_stage4 h))

theorem readAcc_spec {f : SingleZC} {value : MathUnit → Word} {i : Instr}
    (h : s.stage4 f.cond (.reg f.d) (.raw 0) o t) (he : exec i s = s.readAcc f value) :
    (t.cog.math.macLeft = 0 → ∃ c, Out.delivers (exec i s) o.d
        (t.wrote o.d (value t.cog.math) f.wz f.wc (decide (value t.cog.math = 0)) c 0))
      ∧ (t.cog.math.macLeft ≠ 0 → exec i s = .next (t.waits o false)) := by
  obtain ⟨hgo, hwait⟩ := afterMac_spec (he.trans (State.withOperands_stage4 h))
  refine ⟨fun hm => ⟨Config.freeBit t.turn 2, ?_⟩, hwait⟩
  rw [hgo hm]
  exact State.putResult_delivers _ _ _ _ _ _

theorem sarAcc_ne (f : SingleL) : Instr.saracca f ≠ .saraccb f ∧ Instr.saraccb f ≠ .saracca f
    ∧ Instr.saraccs f ≠ .saracca f ∧ Instr.saraccs f ≠ .saraccb f :=
  ⟨Instr.noConfusion, Instr.noConfusion, Instr.noConfusion, Instr.noConfusion⟩

/-- Settles O52. -/
theorem accumulatorInstructions : Obligations.AccumulatorInstructions := by
  refine ⟨fun s t f o h => ?_, fun s t f o h => ?_, fun s t f o h => ?_, fun s t f o h => ?_⟩
  · intro m p
    have hp : p = macProduct o.dv o.sv := (signExtend_mul _ _).symm
    rw [hp]
    simp only [List.forall_mem_cons]
    exact ⟨(accL_stage4 h (exec_maca s f) :), (accL_stage4 h (exec_macb s f) :), (accL_stage4 h (exec_setacca s f) :),
      (accL_stage4 h (exec_setaccb s f) :), List.forall_mem_nil _⟩
  · simp only [List.forall_mem_cons]
    exact ⟨(exec_clracca s f).trans (config0_stage4 h), (exec_clraccb s f).trans (config0_stage4 h),
      (exec_clraccs s f).trans (config0_stage4 h), List.forall_mem_nil _⟩
  · intro m n shifted
    have sar (a : BitVec 64) : shifted a (a.sshiftRight n) := fun k hk => getLsbD_sshiftRight64 a hk
    obtain ⟨hab, hba, hsa, hsb⟩ := sarAcc_ne f
    obtain ⟨goA, waitA⟩ := (shiftAcc_spec h (exec_saracca s f) :)
    obtain ⟨goB, waitB⟩ := (shiftAcc_spec h (exec_saraccb s f) :)
    obtain ⟨goS, waitS⟩ := (shiftAcc_spec h (exec_saraccs s f) :)
    refine List.forall_mem_cons.mpr ⟨⟨fun hm => ⟨_, _, ?_, ?_, goA hm⟩, waitA⟩, ?_⟩
    · rw [if_neg hab]
      exact sar _
    · rw [if_pos rfl]
    refine List.forall_mem_cons.mpr ⟨⟨fun hm => ⟨_, _, ?_, ?_, goB hm⟩, waitB⟩, ?_⟩
    · rw [if_pos rfl]
    · rw [if_neg hba]
      exact sar _
    refine List.forall_mem_cons.mpr ⟨⟨fun hm => ⟨_, _, ?_, ?_, goS hm⟩, waitS⟩, List.forall_mem_nil _⟩
    · rw [if_neg hsb]
      exact sar _
    · rw [if_neg hsa]
      exact sar _
  · simp only [List.forall_mem_cons]
    exact ⟨(readAcc_spec h (exec_getacal s f) :), (readAcc_spec h (exec_getacah s f) :), (readAcc_spec h (exec_getacbl s f) :),
      (readAcc_spec h (exec_getacbh s f) :), List.forall_mem_nil _⟩

end

end Sys2Proof.Machine
end

section
/-!
PROOFS. Pins, counters, DAC channels, transfer, serial transceivers, remapping, video and pixels (47_pins_ctr_dac_ser.md,
48_video_pix.md, 49_remap_xch.md).
-/

set_option Elab.async false

namespace Sys2Proof.Machine

open Sys2Proof

section
variable {s t : State} {o : Operands}

/-! ### Pins -/

theorem getLsbD_setBit (v : Word) {i k : Nat} (hk : k < 32) (b : Bool) :
    (setBit v i b).getLsbD k = if k = i then b else v.getLsbD k := by
  have hone : ((1#32) <<< i).getLsbD k = decide (k = i) := by
    rw [BitVec.getLsbD_shiftLeft, BitVec.getLsbD_one]
    by_cases h : k = i
    · simp [h ▸ hk, h]
    · simp only [hk, h, decide_true, decide_false, Bool.true_and]
      by_cases hlt : k < i
      · simp [hlt]
      · simp [show k - i ≠ 0 by omega]
  cases b <;> simp only [setBit, Bool.false_eq_true, if_true, if_false, BitVec.getLsbD_or, BitVec.getLsbD_and, BitVec.getLsbD_not,
    hone, hk, decide_true, Bool.true_and] <;> by_cases h : k = i <;> simp [h]

/-- One pin's bit set in the four ports. -/
theorem getLsbD_setPin (q : Quad Word) (port p : Fin 4) {bit k : Nat} (hk : k < 32) (b : Bool) :
    ((q.set port (setBit (q.get port) bit b)).get p).getLsbD k
      = if p = port ∧ k = bit then b else (q.get p).getLsbD k := by
  by_cases hp : p = port
  · rw [hp, Quad.get_set_same, getLsbD_setBit _ hk]
    simp only [true_and]
  · rw [Quad.get_set_ne _ _ hp, if_neg fun h => hp h.1]

theorem putPin_eq (c : Cog) (v : Word) (out dir : Bool) :
    c.putPin (bits v 0 7) out dir = { c with ports := { c.ports with
      out := c.ports.out.set (bits v 5 2).toFin (setBit (c.ports.out.get (bits v 5 2).toFin) (bits v 0 5).toNat out)
      dir := c.ports.dir.set (bits v 5 2).toFin (setBit (c.ports.dir.get (bits v 5 2).toFin) (bits v 0 5).toNat dir) } } := by
  rw [Cog.putPin, pinPort, pinBit, bits_bits v (by decide), bits_bits v (by decide)]

theorem pinOut_eq (c : Cog) (v : Word) :
    c.pinOut (bits v 0 7) = (c.ports.out.get (bits v 5 2).toFin).getLsbD (bits v 0 5).toNat := by
  rw [Cog.pinOut, pinPort, pinBit, bits_bits v (by decide), bits_bits v (by decide)]

theorem putPin_spec {f : SingleL} {i : Instr} {g : Word → Cog → Cog} {out dir : Bool}
    (h : s.stage4 f.cond (dl f.l f.d) (.raw 0) o t) (he : exec i s = s.configL f g)
    (hg : g o.dv t.cog = t.cog.putPin (bits o.dv 0 7) out dir) :
    ∃ outs dirs, exec i s = .next (t.ends { t.cog with ports := { t.cog.ports with out := outs, dir := dirs } } 0)
      ∧ ∀ (p : Fin 4) (k : Nat), k < 32 →
        (outs.get p).getLsbD k = (if p = (bits o.dv 5 2).toFin ∧ k = (bits o.dv 0 5).toNat then out
            else (t.cog.ports.out.get p).getLsbD k)
          ∧ (dirs.get p).getLsbD k = (if p = (bits o.dv 5 2).toFin ∧ k = (bits o.dv 0 5).toNat then dir
            else (t.cog.ports.dir.get p).getLsbD k) := by
  rw [putPin_eq] at hg
  refine ⟨_, _, (he.trans (configL_stage4 h)).trans (by rw [hg]), fun p k hk => ⟨?_, ?_⟩⟩ <;> exact getLsbD_setPin _ _ _ hk _

/-- Settles O53. -/
theorem pinInstructions : Obligations.PinInstructions := by
  refine ⟨fun s t f o h => ⟨?_, ?_⟩, fun s t f o h => ⟨?_, ?_⟩, fun s t n f o h => ⟨Config.freeIndex t.turn 1, ?_⟩⟩
  · have drive {i : Instr} {level : Bool → Task → Bool} {out : Bool} (he : exec i s = s.drivePin f level)
        (hl : level (t.cog.pinOut (bits o.dv 0 7)) t.cog.task = out) := 
      putPin_spec (dir := true) h he (congrArg (t.cog.putPin _ · true) hl)
    simp only [List.forall_mem_cons]
    exact ⟨putPin_spec h (exec_offp s f) (congrArg (t.cog.putPin _ · false) (pinOut_eq _ _)),
      (drive (exec_notp s f) (congrArg not (pinOut_eq _ _)) :), (drive (exec_clrp s f) rfl :), (drive (exec_setp s f) rfl :),
      (drive (exec_setpc s f) rfl :), (drive (exec_setpnc s f) rfl :), (drive (exec_setpz s f) rfl :),
      (drive (exec_setpnz s f) rfl :), List.forall_mem_nil _⟩
  · simp only [List.forall_mem_cons]
    exact ⟨(exec_setpora s f).trans (configL_stage4 h), (exec_setporb s f).trans (configL_stage4 h),
      (exec_setporc s f).trans (configL_stage4 h), (exec_setpord s f).trans (configL_stage4 h), List.forall_mem_nil _⟩
  · exact (exec_getp s f).trans (State.withOperands_stage4 h)
  · exact (exec_getnp s f).trans (State.withOperands_stage4 h)
  · exact (exec_cfgpins s n f).trans (State.withOperands_stage4 h)

/-! ### Counters -/

/-- PHS is set, or left to the counter that moves it in this clock (R804). -/
theorem Ctr.setPhs_puts (u : Ctr) (v : Word) (coin : Bool) :
    u.setPhs v coin = { u with phs := v } ∨ ((u.adding || u.subbing) = true ∧ u.setPhs v coin = u) := by
  rw [Ctr.setPhs]
  split_ifs with h
  · exact .inr ⟨(Bool.and_eq_true_iff.mp h).1, rfl⟩
  · exact .inl rfl

theorem setCtra_stage4 {f : SingleL} {g : Ctr → Word → Bool → Ctr} (h : s.stage4 f.cond (dl f.l f.d) (.raw 0) o t) :
    s.setCtra f g = .next (t.ends { t.cog with ctra := g t.cog.ctra o.dv (Config.freeBit s.turn 4) } 0) := configL_stage4 h

theorem setCtrb_stage4 {f : SingleL} {g : Ctr → Word → Bool → Ctr} (h : s.stage4 f.cond (dl f.l f.d) (.raw 0) o t) :
    s.setCtrb f g = .next (t.ends { t.cog with ctrb := g t.cog.ctrb o.dv (Config.freeBit s.turn 5) } 0) := configL_stage4 h

theorem setCtrs_stage4 {f : DualL} {g : Ctr → Word → Bool → Ctr} (h : s.stage4 f.cond (dl f.l f.d) (si f.i f.s) o t) :
    s.setCtrs f g = .next (t.ends { t.cog with
      ctra := g t.cog.ctra o.sv (Config.freeBit s.turn 4), ctrb := g t.cog.ctrb o.dv (Config.freeBit s.turn 5) } 0) :=
  configLS_stage4 h

theorem readInto_delivers {f : SingleZC} {value : State → Word} {after : Cog → Cog} {i : Instr}
    (h : s.stage4 f.cond (.reg f.d) (.raw 0) o t) (he : exec i s = s.readInto f value after) :
    ∃ c, Out.delivers (exec i s) o.d
      (t.ends (((after t.cog).setFlags f.wz f.wc (decide (value t = 0)) c).writeReg o.d (value t)) 0) := by
  refine ⟨Config.freeBit t.turn 2, ?_⟩
  rw [he, readInto_stage4 h]
  exact State.finishD_delivers _ _ _ _ _

theorem syncCtr_whenReady {f : Zero0} {ctr : Cog → Ctr} {i : Instr} (h : s.stage4 f.cond (.raw 0) (.raw 0) o t)
    (he : exec i s = s.syncCtr f ctr) :
    Out.whenReady (exec i s) t o (ctr t.cog).rolling (exec i s = .next (t.ends t.cog 0)) := by
  have hw := he.trans (State.conditional_stage4 h)
  refine hw ▸ State.waitFor_whenReady fun hr => ?_
  rw [hr]
  rfl

/-- The units stand behind the decoding of operands as before it. -/
theorem State.stage4.counters {cond : BitVec 4} {du : DUse} {su : SUse} (h : s.stage4 cond du su o t) :
    t.cog.ctra = s.cog.ctra ∧ t.cog.ctrb = s.cog.ctrb := by
  obtain ⟨-, -, rfl⟩ | ⟨w, -, -, rfl⟩ := h
  · rw [State.cog_opened]
    exact ⟨rfl, rfl⟩
  · exact ⟨rfl, rfl⟩

/-- Settles O54. -/
theorem counterInstructions : Obligations.CounterInstructions := by
  refine ⟨fun s t f o h => ⟨?_, ⟨_, Ctr.setPhs_puts _ _ _, (exec_setphsa s f).trans (setCtra_stage4 h)⟩,
      ⟨_, Ctr.setPhs_puts _ _ _, (exec_setphsb s f).trans (setCtrb_stage4 h)⟩⟩,
    fun s t f o h => ⟨?_, ⟨_, _, Ctr.setPhs_puts _ _ _, Ctr.setPhs_puts _ _ _, (exec_setphss s f).trans (setCtrs_stage4 h)⟩⟩,
    fun s t f o h => ?_, fun s t f o h => ⟨?_, ?_⟩, fun s t f o h => ?_⟩ <;> simp only [List.forall_mem_cons]
  · exact ⟨(exec_setctra s f).trans (setCtra_stage4 h), (exec_setctrb s f).trans (setCtrb_stage4 h),
      (exec_setwava s f).trans (setCtra_stage4 h), (exec_setwavb s f).trans (setCtrb_stage4 h),
      (exec_setfrqa s f).trans (setCtra_stage4 h), (exec_setfrqb s f).trans (setCtrb_stage4 h),
      (exec_addphsa s f).trans (setCtra_stage4 h), (exec_addphsb s f).trans (setCtrb_stage4 h),
      (exec_subphsa s f).trans (setCtra_stage4 h), (exec_subphsb s f).trans (setCtrb_stage4 h), List.forall_mem_nil _⟩
  · exact ⟨(exec_setctrs s f).trans (setCtrs_stage4 h), (exec_setwavs s f).trans (setCtrs_stage4 h),
      (exec_setfrqs s f).trans (setCtrs_stage4 h), (exec_addphss s f).trans (setCtrs_stage4 h),
      (exec_subphss s f).trans (setCtrs_stage4 h), List.forall_mem_nil _⟩
  · have read {i : Instr} {value : State → Word} {after : Cog → Cog} (he : exec i s = s.readInto f value after) :=
      readInto_delivers h he
    exact ⟨(read (exec_getphsa s f) :), (read (exec_getphsb s f) :), (read (exec_getphza s f) :), (read (exec_getphzb s f) :),
      (read (exec_getcosa s f) :), (read (exec_getcosb s f) :), (read (exec_getsina s f) :), (read (exec_getsinb s f) :),
      List.forall_mem_nil _⟩
  · exact ⟨(exec_capctra s f).trans (config0_stage4 h), (exec_capctrb s f).trans (config0_stage4 h),
      (exec_capctrs s f).trans (config0_stage4 h), List.forall_mem_nil _⟩
  · exact ⟨(syncCtr_whenReady h (exec_synctra s f) :), (syncCtr_whenReady h (exec_synctrb s f) :), List.forall_mem_nil _⟩
  · obtain ⟨ha, hb⟩ := h.counters
    refine ⟨(exec_polctra s f).trans ((State.conditional_stage4 h).trans ?_),
      (exec_polctrb s f).trans ((State.conditional_stage4 h).trans ?_), List.forall_mem_nil _⟩
    · rw [← ha]
      rfl
    · rw [← hb]
      rfl

/-! ### DAC channels, transfer, remapping -/

theorem setDac_stage4 {f : SingleL} {n : Fin 4} (h : s.stage4 f.cond (if f.l then .raw f.d else .reg f.d) (.raw 0) o t)
    (ha : f.l = true → t.task.augd = none) :
    s.setDac f n = .next (t.ends { t.cog with dac :=
      { t.cog.dac with val := t.cog.dac.val.set n (dacValue f.l o.dv), cfg := t.cog.dac.cfg.set n 0 } } 0) :=
  (State.withOperands_stage4 h).trans (State.noAugd_of ha)

/-- The two transfer modes from AUX to pins (R852). -/
theorem fromAux_iff : ∀ v : BitVec 7, (v.getLsbD 6 && v.getLsbD 4 && !v.getLsbD 5) = decide (bits v 4 3 = 0b101#3) := by
  decide

theorem setxfr_stage4 {f : DualL} (h : s.stage4 f.cond (dl f.l f.d) (si f.i f.s) o t) :
    ∃ p, exec (.setxfr f) s = .next (t.ends { t.cog with xfr := { t.cog.xfr with
      cfg := bits o.dv 0 7, phase := 0, pins := p, delay := bits o.dv 4 3 = 0b101#3 } } 0) := by
  refine ⟨if t.cog.xfr.enabled then t.cog.xfr.pins else 0, ?_⟩
  rw [← bits_bits (lo := 0) (n := 7) (lo' := 4) (n' := 3) o.dv (by decide), ← fromAux_iff]
  exact (exec_setxfr s f).trans (configLS_stage4 h)

theorem Cog.remapField_direct {c : Cog} {f : RegAddr}
    (h : (bits c.remap.eff 3 3).toNat = 0 ∨ 2 ^ (bits c.remap.eff 0 3).toNat ≤ f.toNat) : c.remapField f = f := by
  rw [Cog.remapField]
  split_ifs with h0 hlt hbig
  · rfl
  · omega
  · omega
  · rfl

theorem Cog.remapField_block {c : Cog} {f : RegAddr} (h0 : (bits c.remap.eff 3 3).toNat ≠ 0)
    (hlt : f.toNat < 2 ^ (bits c.remap.eff 0 3).toNat)
    (h9 : (bits c.remap.eff 3 3).toNat + (bits c.remap.eff 0 3).toNat ≤ 9) :
    (c.remapField f).toNat
      = c.blockSelector % 2 ^ (bits c.remap.eff 3 3).toNat * 2 ^ (bits c.remap.eff 0 3).toNat + f.toNat := by
  rw [Cog.remapField]
  simp only [if_neg h0, if_pos hlt, if_neg (Nat.not_lt.mpr h9)]
  rw [BitVec.toNat_ofNat]
  refine Nat.mod_eq_of_lt ?_
  generalize (bits c.remap.eff 3 3).toNat = b at *
  generalize (bits c.remap.eff 0 3).toNat = r at *
  have hsel : c.blockSelector % 2 ^ b + 1 ≤ 2 ^ b := Nat.mod_lt _ (Nat.two_pow_pos b)
  calc c.blockSelector % 2 ^ b * 2 ^ r + f.toNat
      < (c.blockSelector % 2 ^ b + 1) * 2 ^ r := by rw [Nat.succ_mul]; omega
    _ ≤ 2 ^ b * 2 ^ r := Nat.mul_le_mul_right _ hsel
    _ = 2 ^ (b + r) := (Nat.pow_add 2 b r).symm
    _ ≤ 2 ^ 9 := Nat.pow_le_pow_right (by decide) h9

/-- Settles O55. -/
theorem unitConfiguration : Obligations.UnitConfiguration := by
  refine ⟨fun s t f o h => ?_, fun s t f o h ha => ?_, fun s t f o h => ?_, fun s t f o h => setxfr_stage4 h, fun s c n => ?_,
    fun c f => ⟨Cog.remapField_direct, Cog.remapField_block⟩, fun s cond du su f => ⟨rfl, rfl, rfl⟩⟩
  · simp only [List.forall_mem_cons]
    exact ⟨(exec_cfgdac0 s f).trans (configL_stage4 h), (exec_cfgdac1 s f).trans (configL_stage4 h),
      (exec_cfgdac2 s f).trans (configL_stage4 h), (exec_cfgdac3 s f).trans (configL_stage4 h),
      (exec_cfgdacs s f).trans (configL_stage4 h), (exec_setrace s f).trans (configL_stage4 h),
      (exec_setmap s f).trans (configL_stage4 h), (exec_setxch s f).trans (configL_stage4 h), List.forall_mem_nil _⟩
  · simp only [List.forall_mem_cons]
    exact ⟨(exec_setdac0 s f).trans (setDac_stage4 h ha), (exec_setdac1 s f).trans (setDac_stage4 h ha),
      (exec_setdac2 s f).trans (setDac_stage4 h ha), (exec_setdac3 s f).trans (setDac_stage4 h ha), List.forall_mem_nil _⟩
  · refine ((exec_setdacs s f).trans (configL_stage4 h)).trans ?_
    cases f.l <;> rfl
  · rw [State.cog_ends]
    exact ⟨rfl, rfl, rfl⟩

/-! ### Serial transceivers -/

/-- An enabled side with a period of 0 (U57). -/
theorem Ser.badPeriod_configure (u : Ser) (cfg periods : Word) (turn draw : Nat) :
    (u.configure cfg periods turn draw).badPeriod = true
      ↔ (bits cfg 7 2 ≠ 0 ∧ bits periods 0 16 = 0)
        ∨ (bits cfg 16 2 ≠ 0 ∧ (if bits periods 16 16 = 0 then bits periods 0 16 else bits periods 16 16) = 0) := by
  rw [Ser.badPeriod, Bool.or_eq_true, Bool.and_eq_true, Bool.and_eq_true, bne_iff_ne, bne_iff_ne, beq_iff_eq, beq_iff_eq]
  rfl

theorem Ser.configure_idle (u : Ser) (cfg periods : Word) (turn draw : Nat) :
    (u.txBusy = false → (u.configure cfg periods turn draw).txBusy = false)
      ∧ (u.rxFull = false → (u.configure cfg periods turn draw).rxFull = false) :=
  ⟨fun h => congrArg (· && _) h, fun h => congrArg (· && _) h⟩

theorem setSer_spec {f : DualL} {ser : Cog → Ser} {put : Ser → Cog → Cog} {i : Instr}
    (h : s.stage4 f.cond (dl f.l f.d) (si f.i f.s) o t) (he : exec i s = s.setSer f ser put) :
    let rx := if bits o.sv 16 16 = 0 then bits o.sv 0 16 else bits o.sv 16 16
    let bad := (bits o.dv 7 2 ≠ 0 ∧ bits o.sv 0 16 = 0) ∨ (bits o.dv 16 2 ≠ 0 ∧ rx = 0)
    (¬bad → ∃ u : Ser, (u.cfg = o.dv ∧ u.txPeriod = bits o.sv 0 16 ∧ u.rxPeriod = rx)
        ∧ ((ser t.cog).txBusy = false → u.txBusy = false) ∧ ((ser t.cog).rxFull = false → u.rxFull = false)
        ∧ exec i s = .next (t.ends (put u t.cog) 0))
      ∧ (bad → exec i s = .refused .serialPeriod) := by
  intro rx bad
  have hw := he.trans (State.withOperands_stage4 h)
  obtain ⟨htx, hrx⟩ := (ser t.cog).configure_idle o.dv o.sv t.turn 4
  exact ⟨fun hb => ⟨_, ⟨rfl, rfl, rfl⟩, htx, hrx, hw.trans (if_neg (mt (Ser.badPeriod_configure ..).mp hb))⟩,
    fun hb => hw.trans (if_pos ((Ser.badPeriod_configure ..).mpr hb))⟩

/-- A transmitter takes D when it is ready (R863). -/
theorem serOut_spec {f : SingleCL} {ser : Cog → Ser} {put : Ser → Cog → Cog} {i : Instr}
    (h : s.stage4 f.cond (dl f.l f.d) (.raw 0) o t) (he : exec i s = s.serOut f ser put) :
    ∃ ready, (bits (ser t.cog).cfg 7 2 ≠ 0 → ready = !(ser t.cog).txBusy)
      ∧ (f.wc = true → exec i s = .next (t.ends
          ((if ready then put ((ser t.cog).capture o.dv) t.cog else t.cog).setFlags false true false ready) 0))
      ∧ (f.wc = false → Out.whenReady (exec i s) t o ready
          (exec i s = .next (t.ends (put ((ser t.cog).capture o.dv) t.cog) 0))) := by
  have hw := he.trans (State.withOperands_stage4 h)
  refine ⟨t.txReady (ser t.cog), fun hm => if_neg hm, fun hc => hw.trans (if_pos hc), fun hc => ?_⟩
  replace hw := hw.trans (if_neg (by rw [hc]; decide))
  refine hw ▸ State.waitFor_whenReady fun hr => ?_
  rw [hr]
  rfl

/-- A receiver gives what it has taken, and else waits or says so (R865). -/
theorem serIn_spec {f : SingleZC} {ser : Cog → Ser} {put : Ser → Cog → Cog} {i : Instr}
    (h : s.stage4 f.cond (.reg f.d) (.raw 0) o t) (he : exec i s = s.serIn f ser put) :
    ∃ v, ((ser t.cog).rxFull = true → v = (ser t.cog).rxData) ∧
      let u1 := t.ends (((put { ser t.cog with rxFull := false } t.cog).setFlags f.wz f.wc (decide (v = 0))
        (ser t.cog).rxFull).writeReg o.d v) 0
      (f.wc = true → Out.delivers (exec i s) o.d u1)
        ∧ (f.wc = false → Out.whenReady (exec i s) t o (ser t.cog).rxFull (Out.delivers (exec i s) o.d u1)) := by
  have hw := he.trans (State.withOperands_stage4 h)
  refine ⟨if (ser t.cog).rxFull then (ser t.cog).rxData else Config.freeWord t.turn 1, fun hf => if_pos hf, fun hc => ?_,
    fun hc => ?_⟩
  · rw [hw.trans (if_pos hc)]
    exact State.finishD_delivers _ _ _ _ _
  · replace hw := hw.trans (if_neg (by rw [hc]; decide))
    refine hw ▸ State.waitFor_whenReady fun hr => ?_
    rw [hr]
    exact State.finishD_delivers _ _ _ _ _

/-- Settles O56. -/
theorem serialInstructions : Obligations.SerialInstructions := by
  refine ⟨fun s t f o h => ?_, fun s t f o h => ⟨serOut_spec h (exec_serouta s f), serOut_spec h (exec_seroutb s f)⟩,
    fun s t f o h => ⟨serIn_spec h (exec_serina s f), serIn_spec h (exec_serinb s f)⟩⟩
  obtain ⟨setA, badA⟩ := setSer_spec h (exec_setsera s f)
  obtain ⟨setB, badB⟩ := setSer_spec h (exec_setserb s f)
  exact ⟨setA, setB, fun hb => ⟨badA hb, badB hb⟩⟩

/-! ### Video -/

theorem vidReady_on (hv : bits t.cog.vid.cfg 5 2 ≠ 0) (hp : bits t.cog.ctra.cfg 3 2 = 0) (hd : bits t.cog.ctra.cfg 0 3 ≠ 0) :
    t.vidReady = t.cog.vid.next.isNone := by
  refine if_pos ?_
  rw [Vid.on, Ctr.pll, bne_iff_ne.mpr hv, beq_iff_eq.mpr hp, bne_iff_ne.mpr hd]
  rfl

theorem giveVid_whenReady {out : Out} {p : Operands} (he : out = t.giveVid p) :
    Out.whenReady out t p t.vidReady
      (out = .next (t.ends { t.cog with vid := { t.cog.vid with next := some (p.dv, p.sv) } } 0)) := by
  refine he ▸ State.waitFor_whenReady fun hr => ?_
  rw [State.giveVid, hr]
  rfl

/-- Settles O57. -/
theorem videoInstructions : Obligations.VideoInstructions := by
  refine ⟨fun s t f o h => ?_, fun s t f o h => ⟨t.vidReady, vidReady_on, giveVid_whenReady ?_⟩,
    fun s t n f o h ha => ⟨t.vidReady, vidReady_on, giveVid_whenReady ?_⟩,
    fun s t f o h => ⟨t.vidReady, vidReady_on, (exec_polvid s f).trans (State.conditional_stage4 h)⟩⟩
  · simp only [List.forall_mem_cons]
    exact ⟨(exec_setvid s f).trans (configL_stage4 h), (exec_setvidy s f).trans (configL_stage4 h),
      (exec_setvidi s f).trans (configL_stage4 h), (exec_setvidq s f).trans (configL_stage4 h), List.forall_mem_nil _⟩
  · exact (exec_waitvid s f).trans (State.withOperands_stage4 h)
  · exact (exec_waitvidImm s n f).trans ((State.withOperands_stage4 h).trans (State.noAugd_eq true ha))

/-! ### Pixels -/

theorem comp_pixel (out : Nat → Nat) (hout : ∀ k, out k ≤ 255) {k : Nat} (hk : k < 4) :
    comp (pixel (out 3) (out 2) (out 1) (out 0)) k = out k := by
  have := congrArg BitVec.toNat (bits_fourBytes (fun j => BitVec.ofNat 8 (out j)) k hk)
  exact this.trans ((BitVec.toNat_ofNat _ _).trans (Nat.mod_eq_of_lt (Nat.lt_succ_of_le (hout k))))

theorem comp_mixPixels (terms : MixTerms) (d v : Word) {k : Nat} (hk : k < 4) :
    comp (mixPixels terms d v) k = mixComp (comp d k) (comp v k) (terms d v k).1 (terms d v k).2 :=
  comp_pixel (fun k => mixComp (comp d k) (comp v k) (terms d v k).1 (terms d v k).2) (fun _ => Nat.min_le_left _ _) hk

/-- A component of a 1:5:5:5 pixel expanded (R917). -/
def expandedComp (v : BitVec 16) (k : Nat) : Nat :=
  if k = 3 then (if v.getLsbD 15 then 0xFF else 0)
  else (bits v (5 * k) 5).toNat * 8 + (bits v (5 * k) 5).toNat / 4

theorem toNat_expandFive (v : BitVec 16) (lo : Nat) :
    (bits v lo 5 ++ bits v (lo + 2) 3).toNat = (bits v lo 5).toNat * 8 + (bits v lo 5).toNat / 4 := by
  have hlt := (bits v lo 5).isLt
  have hhigh : (bits v (lo + 2) 3).toNat = (bits v lo 5).toNat / 4 := by
    rw [BitVec.extractLsb'_toNat, BitVec.extractLsb'_toNat, Nat.shiftRight_add, Nat.shiftRight_eq_div_pow _ 2]
    omega
  rw [toNat_append_eq, hhigh]
  rfl

theorem comp_expandPixel (v : BitVec 16) {k : Nat} (hk : k < 4) : comp (expandPixel v) k = expandedComp v k := by
  have hf := bits_fourBytes (fun j => if j = 3 then (if v.msb then 0xFF#8 else 0#8) else bits v (5 * j) 5 ++ bits v (5 * j + 2) 3)
    k hk
  refine (congrArg BitVec.toNat hf).trans ?_
  rw [expandedComp]
  by_cases h3 : k = 3
  · rw [if_pos h3, if_pos h3, BitVec.msb_eq_getLsbD_last]
    cases v.getLsbD (16 - 1) <;> rfl
  · rw [if_neg h3, if_neg h3]
    exact toNat_expandFive v _

theorem getLsbD_packPixel_top (p : Word) : (packPixel p).getLsbD 15 = decide (comp p 3 ≠ 0) := by
  have hne : (bits p 24 8 != 0) = decide (comp p 3 ≠ 0) := by
    rw [bne, decide_not, Bool.beq_eq_decide_eq]
    exact congrArg not (decide_eq_decide.mpr ⟨fun h => congrArg BitVec.toNat h, fun h => BitVec.eq_of_toNat_eq h⟩)
  rw [packPixel, BitVec.getLsbD_append, ← hne]
  exact (by cases (bits p 24 8 != 0) <;> rfl)

theorem bits_packPixel (p : Word) : ∀ k < 3, (bits (packPixel p) (5 * k) 5).toNat = comp p k / 8 := by
  have field (k : Nat) : (bits p (8 * k + 3) 5).toNat = comp p k / 8 := by
    have hlt := (bits p (8 * k) 8).isLt
    rw [comp, ← bits_bits p (show 3 + 5 ≤ 8 by decide)]
    generalize bits p (8 * k) 8 = x at *
    rw [BitVec.extractLsb'_toNat, Nat.shiftRight_eq_div_pow]
    omega
  intro k hk
  rw [← field k, packPixel]
  obtain rfl | rfl | rfl : k = 0 ∨ k = 1 ∨ k = 2 := by omega
  · rw [bits_append_low _ _ (by decide), bits_append_low _ _ (by decide), bits_append_low _ _ (by decide), bits_all]
  · rw [bits_append_low _ _ (by decide), bits_append_low _ _ (by decide), bits_append_high _ _ (by decide), bits_all]
  · rw [bits_append_low _ _ (by decide), bits_append_high _ _ (by decide), bits_all]

/-- The D pixel the mixer mixes (R916, R917). -/
def Mix.dPixel (m : Mix) (d : Word) : Word := if m.wordMode then expandPixel (bits d 0 16) else d

/-- The S pixel, in word mode the word that is next. -/
def Mix.sPixel (m : Mix) (v : Word) : Word :=
  if m.wordMode then expandPixel (if m.sel then bits v 16 16 else bits v 0 16) else v

theorem Mix.blend_long {m : Mix} (h : m.wordMode = false) (terms : MixTerms) (d v : Word) :
    m.blend terms d v = mixPixels terms (m.dPixel d) (m.sPixel v) := by
  simp [Mix.blend, Mix.dPixel, Mix.sPixel, h]

theorem Mix.blend_word {m : Mix} (h : m.wordMode = true) (terms : MixTerms) (d v : Word) :
    m.blend terms d v = packPixel (mixPixels terms (m.dPixel d) (m.sPixel v)) ++ bits d 16 16 := by
  simp [Mix.blend, Mix.dPixel, Mix.sPixel, h, mixWord]

theorem Mix.step_eq (m : Mix) : m.step = { m with sel := m.wordMode != m.sel } := by
  rw [Mix.step]
  cases h : m.wordMode
  · rw [if_neg (by decide), Bool.false_bne]
  · rw [if_pos rfl, Bool.true_bne]

theorem comp_dPixel (m : Mix) (d : Word) {k : Nat} (hk : k < 4) :
    comp (m.dPixel d) k = if m.wordMode then expandedComp (bits d 0 16) k else comp d k := by
  cases h : m.wordMode <;> simp [Mix.dPixel, h, comp_expandPixel _ hk]

theorem comp_sPixel (m : Mix) (v : Word) {k : Nat} (hk : k < 4) :
    comp (m.sPixel v) k
      = if m.wordMode then expandedComp (if m.sel then bits v 16 16 else bits v 0 16) k else comp v k := by
  cases h : m.wordMode <;> simp [Mix.sPixel, h, comp_expandPixel _ hk]

theorem colourTerm_eq (code : BitVec 3) (d v : Word) (fixed : Byte) (other : Nat) :
    colourTerm code d v fixed other = if code = 0 then 0 else if code = 1 then 0xFF else if code = 2 then comp v 3
      else if code = 3 then 255 - comp v 3 else if code = 4 then comp d 3 else if code = 5 then 255 - comp d 3
      else if code = 6 then fixed.toNat else other := by
  have codes : ∀ c : BitVec 3, c = 0 ∨ c = 1 ∨ c = 2 ∨ c = 3 ∨ c = 4 ∨ c = 5 ∨ c = 6 ∨ c = 7 := by decide
  obtain rfl | rfl | rfl | rfl | rfl | rfl | rfl | rfl := codes code <;> rfl

/-- What a mix instruction leaves, given the components of the two pixels and its terms (R915 to R917). -/
theorem mixOp_spec {f : DualP} {terms : Mix → MixTerms} {i : Instr} {dk sk : Nat → Nat} {g : Nat → Nat × Nat}
    (h : s.stage4 f.cond (.reg f.d) (si f.i f.s) o t) (he : exec i s = s.mixOp f terms)
    (hd : ∀ k < 4, comp (t.cog.mix.dPixel o.dv) k = dk k) (hs : ∀ k < 4, comp (t.cog.mix.sPixel o.sv) k = sk k)
    (hg : ∀ k < 4, terms t.cog.mix (t.cog.mix.dPixel o.dv) (t.cog.mix.sPixel o.sv) k = g k) :
    let word := t.cog.mix.m.getLsbD 8
    let out (k : Nat) : Nat := min 255 ((dk k * (g k).1 + sk k * (g k).2 + 255) / 256)
    (isWindow o.d = false → ∃ r,
        exec i s = .next (t.ends
            (({ t.cog with mix := { t.cog.mix with sel := word != t.cog.mix.sel } } : Cog).writeReg o.d r) 1)
          ∧ (word = false → ∀ k < 4, (bits r (8 * k) 8).toNat = out k)
          ∧ (word = true → bits r 0 16 = bits o.dv 16 16 ∧ r.getLsbD 31 = decide (out 3 ≠ 0)
              ∧ ∀ k < 3, (bits r (16 + 5 * k) 5).toNat = out k / 8))
      ∧ (isWindow o.d = true → exec i s = .refused .indirectWindow) := by
  intro word out
  have hm : ∀ k < 4, comp (mixPixels (terms t.cog.mix) (t.cog.mix.dPixel o.dv) (t.cog.mix.sPixel o.sv)) k = out k := by
    intro k hk
    rw [comp_mixPixels _ _ _ hk, hg k hk, hd k hk, hs k hk]
    rfl
  have hw := he.trans (State.withOperands_stage4 h)
  dsimp only at hw
  rw [Mix.step_eq] at hw
  obtain ⟨go, refuse⟩ := State.finishD_delivers t { t.cog with mix := { t.cog.mix with sel := word != t.cog.mix.sel } } o.d
    (t.cog.mix.blend (terms t.cog.mix) o.dv o.sv) 1
  refine ⟨fun hwin => ⟨_, hw.trans (go hwin), fun hl k hk => ?_, fun hwd => ?_⟩, fun hwin => hw.trans (refuse hwin)⟩
  · rw [Mix.blend_long hl]
    exact hm k hk
  · rw [Mix.blend_word hwd]
    refine ⟨?_, ?_, fun k hk => ?_⟩
    · rw [bits_append_low _ _ (by decide), bits_all]
    · rw [BitVec.getLsbD_append, ← hm 3 (by decide)]
      exact getLsbD_packPixel_top _
    · rw [bits_append_high _ _ (by omega), Nat.add_sub_cancel_left, bits_packPixel _ k hk, hm k (by omega)]

/-- Settles O59. -/
theorem pixelMixerResults : Obligations.PixelMixerResults := by
  refine ⟨fun s t f o h => (exec_setmix s f).trans (configLS_stage4 h), fun s t f o h => ?_⟩
  have hd : ∀ k < 4, _ := fun k hk => comp_dPixel t.cog.mix o.dv (k := k) hk
  have hs : ∀ k < 4, _ := fun k hk => comp_sPixel t.cog.mix o.sv (k := k) hk
  have h3 : 3 < 4 := by decide
  refine List.forall_mem_cons.mpr ⟨(mixOp_spec h (exec_addpix s f) hd hs fun k hk => rfl :), ?_⟩
  refine List.forall_mem_cons.mpr ⟨(mixOp_spec h (exec_mulpix s f) hd hs fun k hk => congrArg (·, 0) (hs k hk) :), ?_⟩
  refine List.forall_mem_cons.mpr ⟨(mixOp_spec h (exec_blnpix s f) hd hs fun _ _ => congrArg (fun x => (255 - x, x)) (hs 3 h3) :), ?_⟩
  refine List.forall_mem_cons.mpr ⟨(mixOp_spec h (exec_mixpix s f) hd hs fun k hk => ?_ :), List.forall_mem_nil _⟩
  rw [Mix.terms, colourTerm_eq, colourTerm_eq, hd k hk, hs k hk, hd 3 h3, hs 3 h3]
  rfl

end

end Sys2Proof.Machine
end

section
/-!
PROOFS. What the instructions of the units, of memory and of control leave alone, one lemma per shape of meaning
(10_state.md, section 9).
-/

set_option Elab.async false

namespace Sys2Proof.Machine

open Sys2Proof

section
variable {c k : Cog} {writes : RegAddr → Prop} {pushes : Byte → Prop} {wz wc : Bool}

/-! ### Within a cog -/

theorem Cog.framed.auxUse (c : Cog) (constant : Bool) (v : Word) : c.framed (c.auxUse constant v).cog writes pushes wz wc := by
  unfold Cog.auxUse Cog.auxPointer
  dsimp only
  split_ifs <;> exact .of_same rfl rfl rfl rfl rfl rfl

/-- A pin instruction changes OUT and DIR only, which are the registers from $1F8 on. -/
theorem Cog.framed.putPin (c : Cog) (p : BitVec 7) (out dir : Bool) :
    c.framed (c.putPin p out dir) (fun a => 0x1F8 ≤ a.toNat) nowhere false false where
  cur := rfl
  registers a ha := by
    rw [Cog.stored, Cog.stored, if_pos (Nat.not_le.mp ha), if_pos (Nat.not_le.mp ha)]
    rfl
  aux _ _ := rfl
  tasks _ _ := rfl
  z _ := rfl
  c _ := rfl

/-- A change of the task that is neither of its flags. -/
theorem Cog.framed.setTask_same {u : Task} (hz : u.z = c.task.z) (hc : u.c = c.task.c) :
    c.framed (c.setTask u) writes pushes wz wc := .setTask (fun _ => hz) fun _ => hc

/-- The flags of a form whose flag controls are these. -/
theorem Cog.framed.setFlags_of {wz' wc' : Bool} (hz : wz' = wz) (hc : wc' = wc) (z b : Bool) :
    c.framed (c.setFlags wz' wc' z b) writes pushes wz wc := by
  subst hz hc
  exact .setFlags z b

end

section
variable {s u : State} {i : Instr} {stores : Nat → Prop} {writes : RegAddr → Prop} {pushes : Byte → Prop} {wz wc : Bool}

/-- The D register is the same whatever stands in S. -/
theorem State.opsNow_d (s : State) (cond : BitVec 4) (d : RegAddr) (su : SUse) :
    (s.opsNow cond (.reg d) su).d = (s.opsNow cond (.reg d) (.raw 0)).d := by
  cases hw : s.cog.pipe.waiting with
  | none => rw [State.opsNow_of_enters hw, State.opsNow_of_enters hw]; rfl
  | some w => rw [State.opsNow_of_waiting hw, State.opsNow_of_waiting hw]

/-- Decoding moves no pointer. -/
theorem State.cogNow_pointers (s : State) (cond : BitVec 4) (du : DUse) (su : SUse) :
    (s.cogNow cond du su).ptra = s.cog.ptra ∧ (s.cogNow cond du su).ptrb = s.cog.ptrb
      ∧ (s.cogNow cond du su).ptrx = s.cog.ptrx ∧ (s.cogNow cond du su).ptry = s.cog.ptry := by
  cases hw : s.cog.pipe.waiting with
  | none => rw [State.cogNow_of_enters hw, State.cog_opened]; exact ⟨rfl, rfl, rfl, rfl⟩
  | some w => rw [State.cogNow_of_waiting hw]; exact ⟨rfl, rfl, rfl, rfl⟩

theorem leaves_conditional {cond : BitVec 4} {body : Operands → State → Out}
    (h : ∀ u, u.cog = s.cogNow cond (.raw 0) (.raw 0) → s.framed u stores writes pushes wz wc →
      Out.leaves (body (s.opsNow cond (.raw 0) (.raw 0)) u) s stores writes pushes wz wc) :
    Out.leaves (s.conditional cond body) s stores writes pushes wz wc := leaves_withOperands h

/-- The end of an instruction that changes only what no frame names. -/
theorem leaves_same {c : Cog} {stall : Nat} (h : s.framed u stores writes pushes wz wc)
    (hc : u.cog.framed c writes pushes wz wc := by exact .of_same rfl rfl rfl rfl rfl rfl) :
    Out.leaves (u.finish c stall) s stores writes pushes wz wc := leaves_finish h hc stall

/-- The same with a D result. -/
theorem leaves_writesD {c : Cog} {d : RegAddr} {v : Word} {stall : Nat} (h : s.framed u stores writes pushes wz wc)
    (hd : writes d) (hc : u.cog.framed c writes pushes wz wc := by exact .of_same rfl rfl rfl rfl rfl rfl) :
    Out.leaves (u.finishD c d v stall) s stores writes pushes wz wc := leaves_finishD h hc hd v stall

/-! ### Settings -/

theorem leaves_configL {f : SingleL} {g : Word → Cog → Cog} (he : exec i s = s.configL f g)
    (hg : ∀ v k, Cog.framed k (g v k) writes pushes wz wc := by exact fun _ _ => .of_same rfl rfl rfl rfl rfl rfl) :
    Out.leaves (exec i s) s stores writes pushes wz wc :=
  he ▸ leaves_withOperands fun _ _ hu => leaves_finish hu (hg _ _) 0

theorem leaves_configLS {f : DualL} {g : Word → Word → Cog → Cog} (he : exec i s = s.configLS f g)
    (hg : ∀ d v k, Cog.framed k (g d v k) writes pushes wz wc := by exact fun _ _ _ => .of_same rfl rfl rfl rfl rfl rfl) :
    Out.leaves (exec i s) s stores writes pushes wz wc :=
  he ▸ leaves_withOperands fun _ _ hu => leaves_finish hu (hg _ _ _) 0

theorem leaves_config0 {f : Zero0} {g : Cog → Cog} (he : exec i s = s.config0 f g)
    (hg : ∀ k, Cog.framed k (g k) writes pushes wz wc := by exact fun _ => .of_same rfl rfl rfl rfl rfl rfl) :
    Out.leaves (exec i s) s stores writes pushes wz wc :=
  he ▸ leaves_conditional fun _ _ hu => leaves_finish hu (hg _) 0

theorem leaves_setInds {a b : IndReg → IndReg} (he : exec i s = s.setInds a b) :
    Out.leaves (exec i s) s stores writes pushes wz wc :=
  he ▸ leaves_finish (c := { s.cog with inda := a s.cog.inda, indb := b s.cog.indb }) (.refl s _ _ _ _ _)
    (.of_same rfl rfl rfl rfl rfl rfl) 0

theorem leaves_setDac {f : SingleL} {n : Fin 4} (he : exec i s = s.setDac f n) :
    Out.leaves (exec i s) s stores writes pushes wz wc :=
  he ▸ leaves_withOperands fun _ _ hu => leaves_noAugd _ <| leaves_same hu

theorem leaves_writePtry {f : SingleL} {g : Byte → Byte → Byte} (he : exec i s = s.writePtry f g) :
    Out.leaves (exec i s) s stores writes pushes wz wc :=
  he ▸ leaves_withOperands fun _ _ hu => leaves_auxFree <| leaves_same hu

theorem leaves_moveWindow {f : SingleL} {clear : Wide → Wide} (he : exec i s = s.moveWindow f clear) :
    Out.leaves (exec i s) s stores writes pushes wz wc := by
  refine he ▸ leaves_withOperands fun u _ hu => ?_
  dsimp only
  split_ifs
  · exact leaves_refused _
  · exact leaves_same hu

theorem leaves_locPtr {f : Big} {rel : Bool} {put : HubAddr → Cog → Cog} (he : exec i s = s.locPtr f rel put)
    (hg : ∀ a k, Cog.framed k (put a k) writes pushes wz wc := by exact fun _ _ => .of_same rfl rfl rfl rfl rfl rfl) :
    Out.leaves (exec i s) s stores writes pushes wz wc :=
  he ▸ leaves_conditional fun _ _ hu => leaves_noAugs _ <| leaves_finish hu (hg _ _) 0

theorem leaves_setSer {f : DualL} {ser : Cog → Ser} {put : Ser → Cog → Cog} (he : exec i s = s.setSer f ser put)
    (hg : ∀ v k, Cog.framed k (put v k) writes pushes wz wc := by exact fun _ _ => .of_same rfl rfl rfl rfl rfl rfl) :
    Out.leaves (exec i s) s stores writes pushes wz wc := by
  refine he ▸ leaves_withOperands fun u _ hu => ?_
  dsimp only
  split_ifs
  · exact leaves_refused _
  · exact leaves_finish hu (hg _ _) 0

theorem leaves_cfgpins {n : BitVec 2} {f : DualL} : Out.leaves (exec (.cfgpins n f) s) s stores writes pushes wz wc :=
  exec_cfgpins s n f ▸ leaves_withOperands fun _ _ hu => leaves_same hu

theorem leaves_icachex {f : Zero0} : Out.leaves (exec (.icachex f) s) s stores writes pushes wz wc :=
  exec_icachex s f ▸ leaves_conditional fun _ _ hu => leaves_same hu

theorem leaves_augs {n : BitVec 23} : Out.leaves (exec (.augs n) s) s stores writes pushes wz wc :=
  exec_augs s n ▸ leaves_same (.refl s _ _ _ _ _) (.setTask_same rfl rfl)

theorem leaves_augd {n : BitVec 23} : Out.leaves (exec (.augd n) s) s stores writes pushes wz wc :=
  exec_augd s n ▸ leaves_same (.refl s _ _ _ _ _) (.setTask_same rfl rfl)

theorem leaves_wait {f : SingleL} : Out.leaves (exec (.wait f) s) s stores writes pushes wz wc :=
  exec_wait s f ▸ leaves_withOperands fun _ _ hu => leaves_finish hu (.refl _ _ _ _ _) _

/-! ### Engines and units that wait -/

theorem leaves_engineFree {out : Out} {left : MathUnit → Nat} (hg : out.leaves s stores writes pushes wz wc) :
    Out.leaves (u.engineFree left out) s stores writes pushes wz wc := by
  unfold State.engineFree
  split_ifs
  · exact leaves_refused _
  · exact hg

theorem leaves_startL {f : DualL} {left : MathUnit → Nat} {g : Operands → State → MathUnit} (he : exec i s = s.startL f left g) :
    Out.leaves (exec i s) s stores writes pushes wz wc :=
  he ▸ leaves_withOperands fun _ _ hu => leaves_engineFree <| leaves_same hu

theorem leaves_start1 {f : SingleL} {left : MathUnit → Nat} {g : Word → State → MathUnit} (he : exec i s = s.start1 f left g) :
    Out.leaves (exec i s) s stores writes pushes wz wc :=
  he ▸ leaves_withOperands fun _ _ hu => leaves_engineFree <| leaves_same hu

theorem leaves_afterMac {out : Out} (h : s.framed u stores writes pushes wz wc) (o : Operands)
    (hg : out.leaves s stores writes pushes wz wc) : Out.leaves (u.afterMac o out) s stores writes pushes wz wc := by
  unfold State.afterMac
  split_ifs
  · exact hg
  · exact leaves_hold h o false

theorem leaves_shiftAcc {f : SingleL} {g : Nat → MathUnit → MathUnit} (he : exec i s = s.shiftAcc f g) :
    Out.leaves (exec i s) s stores writes pushes wz wc :=
  he ▸ leaves_withOperands fun _ _ hu => leaves_afterMac hu _ <| leaves_same hu

theorem leaves_syncCtr {f : Zero0} {ctr : Cog → Ctr} (he : exec i s = s.syncCtr f ctr) :
    Out.leaves (exec i s) s stores writes pushes wz wc :=
  he ▸ leaves_conditional fun _ _ hu => leaves_waitFor hu _ _ <| leaves_finish hu (.refl _ _ _ _ _) 0

theorem leaves_giveVid (h : s.framed u stores writes pushes wz wc) (o : Operands) :
    Out.leaves (u.giveVid o) s stores writes pushes wz wc :=
  leaves_waitFor h _ _ <| leaves_same h

theorem leaves_waitvid {f : DualP} : Out.leaves (exec (.waitvid f) s) s stores writes pushes wz wc :=
  exec_waitvid s f ▸ leaves_withOperands fun _ _ hu => leaves_giveVid hu _

theorem leaves_waitvidImm {n : BitVec 12} {f : DualS} : Out.leaves (exec (.waitvidImm n f) s) s stores writes pushes wz wc :=
  exec_waitvidImm s n f ▸ leaves_withOperands fun _ _ hu => leaves_noAugd _ <| leaves_giveVid hu _

theorem leaves_serOut {f : SingleCL} {ser : Cog → Ser} {put : Ser → Cog → Cog} (he : exec i s = s.serOut f ser put)
    (hg : ∀ v k, Cog.framed k (put v k) writes pushes false f.wc := by exact fun _ _ => .of_same rfl rfl rfl rfl rfl rfl) :
    Out.leaves (exec i s) s stores writes pushes false f.wc := by
  refine he ▸ leaves_withOperands fun u _ hu => ?_
  have sent (b : Bool) (v : Ser) : u.cog.framed (if b then put v u.cog else u.cog) writes pushes false f.wc := by
    cases b
    · exact .refl _ _ _ _ _
    · exact hg _ _
  dsimp only
  by_cases hc : f.wc = true
  · rw [if_pos hc]
    exact leaves_same hu (by exact (sent _ _).trans (.setFlags_of rfl hc.symm _ _))
  · rw [if_neg hc]
    refine leaves_waitFor hu _ _ ?_
    exact leaves_same hu (by exact sent _ _)

/-! ### Waiting for CNT and pins -/

theorem leaves_endWait (h : s.framed u stores writes pushes false wc) (met timeout : Bool) :
    Out.leaves (u.endWait wc met timeout) s stores writes pushes false wc := leaves_finish h (.setFlags _ _) 0

theorem leaves_waitPort {n : BitVec 2} {f : DualC} {test : Word → Word → Bool} (he : exec i s = s.waitPort n f test) :
    Out.leaves (exec i s) s stores writes pushes false f.wc := by
  refine he ▸ leaves_withOperands fun u _ hu => ?_
  dsimp only
  split_ifs
  · exact leaves_endWait hu _ _
  · exact leaves_hold hu _ _

theorem leaves_waitEdge {f : SingleCL} {edge : Bool → Bool → Bool} (he : exec i s = s.waitEdge f edge) :
    Out.leaves (exec i s) s stores writes pushes false f.wc := by
  refine he ▸ leaves_withOperands fun u _ hu => ?_
  dsimp only
  split_ifs
  · exact leaves_endWait hu _ _
  · exact leaves_hold hu _ _

theorem leaves_passcnt {f : SingleL} : Out.leaves (exec (.passcnt f) s) s stores writes pushes wz wc := by
  refine exec_passcnt s f ▸ leaves_withOperands fun u _ hu => ?_
  split_ifs
  · exact leaves_branch hu (.refl _ _ _ _ _) _ _
  · exact leaves_fallThrough hu (.refl _ _ _ _ _) _

theorem leaves_cmpcnt {f : SingleCL} : Out.leaves (exec (.cmpcnt f) s) s stores writes pushes false f.wc :=
  exec_cmpcnt s f ▸ leaves_withOperands fun u _ hu =>
    leaves_finish hu (.trans (k := { u.cog with chain := u.nextChain _ }) (.of_same rfl rfl rfl rfl rfl rfl) (.setFlags _ _)) 0

/-! ### Repeat blocks, flags and polls -/

theorem leaves_startRepeat (h : s.framed u stores writes pushes wz wc) (spacers : Nat) (n : BitVec 6) (left : Passes) :
    Out.leaves (u.startRepeat spacers n left) s stores writes pushes wz wc := by
  unfold State.startRepeat
  dsimp only
  split_ifs
  · exact leaves_refused _
  · exact leaves_same h (.setTask_same rfl rfl)

theorem leaves_reps {n : BitVec 16} {m : BitVec 6} : Out.leaves (exec (.reps n m) s) s stores writes pushes wz wc :=
  exec_reps s n m ▸ leaves_noAugs (u := s) _ (leaves_startRepeat (.refl s _ _ _ _ _) 1 m _)

theorem leaves_repd {n : BitVec 6} {f : SingleL} : Out.leaves (exec (.repd n f) s) s stores writes pushes wz wc := by
  refine exec_repd s n f ▸ leaves_withOperands fun u _ hu => ?_
  split_ifs
  · exact leaves_refused _
  · exact leaves_startRepeat hu _ _ _

theorem leaves_repdInf {n : BitVec 6} {f : Zero0} : Out.leaves (exec (.repdInf n f) s) s stores writes pushes wz wc :=
  exec_repdInf s n f ▸ leaves_conditional fun _ _ hu => leaves_startRepeat hu _ _ _

theorem leaves_readPin {f : SingleZCL} {z b : Bool → Bool} (he : exec i s = s.readPin f z b) :
    Out.leaves (exec i s) s stores writes pushes f.wz f.wc :=
  he ▸ leaves_withOperands fun _ _ hu => leaves_putFlags hu _ _

theorem leaves_setzc {f : SingleZCL} : Out.leaves (exec (.setzc f) s) s stores writes pushes f.wz f.wc :=
  exec_setzc f s ▸ leaves_withOperands fun _ _ hu => leaves_putFlags hu _ _

theorem leaves_checkAuxPtr {f : Zero0ZC} {ptr : Cog → Byte} (he : exec i s = s.checkAuxPtr f ptr) :
    Out.leaves (exec i s) s stores writes pushes f.wz f.wc :=
  he ▸ leaves_conditional fun _ _ hu => leaves_putFlags hu _ _

theorem leaves_polvid {f : Zero0ZC} : Out.leaves (exec (.polvid f) s) s stores writes pushes f.wz f.wc :=
  exec_polvid s f ▸ leaves_conditional fun _ _ hu => leaves_putFlags hu _ _

theorem leaves_pollCtr {f : Zero0ZC} {r : Bool} {clear : Cog → Cog} (he : exec i s = s.pollCtr f r clear)
    (hg : ∀ k, Cog.framed k (clear k) writes pushes f.wz f.wc := by exact fun _ => .of_same rfl rfl rfl rfl rfl rfl) :
    Out.leaves (exec i s) s stores writes pushes f.wz f.wc :=
  he ▸ leaves_conditional fun _ _ hu => leaves_finish hu ((hg _).trans (.setFlags _ _)) 0

/-! ### Results in D -/

/-- The register that D names. -/
def State.onlyD (s : State) (cond : BitVec 4) (d : RegAddr) : RegAddr → Prop :=
  fun a => a = (s.opsNow cond (.reg d) (.raw 0)).d

theorem State.onlyD_self (s : State) (cond : BitVec 4) (d : RegAddr) (su : SUse) :
    s.onlyD cond d (s.opsNow cond (.reg d) su).d := s.opsNow_d cond d su

theorem leaves_readInto {f : SingleZC} {value : State → Word} {after : Cog → Cog} (he : exec i s = s.readInto f value after)
    (hg : ∀ k, Cog.framed k (after k) (s.onlyD f.cond f.d) pushes f.wz f.wc := by
      exact fun _ => .of_same rfl rfl rfl rfl rfl rfl) :
    Out.leaves (exec i s) s stores (s.onlyD f.cond f.d) pushes f.wz f.wc :=
  he ▸ leaves_withOperands fun _ _ hu => leaves_finishD hu ((hg _).trans (.setFlags _ _)) rfl _ 0

theorem leaves_readCount {f : SingleZC} {value : State → Word} (he : exec i s = s.readCount f value) :
    Out.leaves (exec i s) s stores (s.onlyD f.cond f.d) pushes f.wz f.wc :=
  he ▸ leaves_withOperands fun _ _ hu => leaves_putResult hu rfl _ 0

theorem leaves_subcnt {f : SingleZC} :
    Out.leaves (exec (.subcnt f) s) s stores (s.onlyD f.cond f.d) pushes f.wz f.wc :=
  exec_subcnt s f ▸ leaves_withOperands fun u _ hu =>
    leaves_finishD hu (.trans (k := { u.cog with chain := u.nextChain _ }) (.of_same rfl rfl rfl rfl rfl rfl) (.setFlags _ _))
      rfl _ 0

theorem leaves_readAcc {f : SingleZC} {value : MathUnit → Word} (he : exec i s = s.readAcc f value) :
    Out.leaves (exec i s) s stores (s.onlyD f.cond f.d) pushes f.wz f.wc :=
  he ▸ leaves_withOperands fun _ _ hu => leaves_afterMac hu _ <| leaves_putResult hu rfl _ 0

theorem leaves_readResult {f : SingleZC} {left : MathUnit → Nat} {value : MathUnit → Word}
    (he : exec i s = s.readResult f left value) :
    Out.leaves (exec i s) s stores (s.onlyD f.cond f.d) pushes f.wz f.wc :=
  he ▸ leaves_withOperands fun _ _ hu => leaves_waitFor hu _ _ <| leaves_putResult hu rfl _ 0

theorem leaves_readAuxPtr {f : SingleZC} {ptr : Cog → Byte} (he : exec i s = s.readAuxPtr f ptr) :
    Out.leaves (exec i s) s stores (s.onlyD f.cond f.d) pushes f.wz f.wc :=
  he ▸ leaves_withOperands fun _ _ hu => leaves_finishD hu (.setFlags _ _) rfl _ 0

theorem leaves_serIn {f : SingleZC} {ser : Cog → Ser} {put : Ser → Cog → Cog} (he : exec i s = s.serIn f ser put)
    (hg : ∀ v k, Cog.framed k (put v k) (s.onlyD f.cond f.d) pushes f.wz f.wc := by
      exact fun _ _ => .of_same rfl rfl rfl rfl rfl rfl) :
    Out.leaves (exec i s) s stores (s.onlyD f.cond f.d) pushes f.wz f.wc := by
  refine he ▸ leaves_withOperands fun u _ hu => ?_
  dsimp only
  by_cases hc : f.wc = true
  · rw [if_pos hc]
    exact leaves_writesD hu rfl (by exact (hg _ _).trans (.setFlags _ _))
  · rw [if_neg hc]
    refine leaves_waitFor hu _ _ ?_
    exact leaves_writesD hu rfl (by exact (hg _ _).trans (.setFlags _ _))

theorem leaves_cogid {f : SingleZC} :
    Out.leaves (exec (.cogid f) s) s stores (s.onlyD f.cond f.d) pushes f.wz f.wc := by
  refine exec_cogid s f ▸ leaves_withOperands fun u _ hu => leaves_atHub hu _ ?_
  split_ifs with hc
  · exact leaves_finish hu (.setFlags_of rfl hc.symm _ _) 1
  · exact leaves_finishD hu (.setFlags_of rfl (Bool.eq_false_iff.mpr hc).symm _ _) rfl _ 1

theorem leaves_getpix {f : SingleZC} :
    Out.leaves (exec (.getpix f) s) s stores (s.onlyD f.cond f.d) pushes f.wz f.wc := by
  rw [exec_getpix, execGetpix]
  split_ifs
  · exact leaves_refused _
  · refine leaves_withOperands fun u _ hu => ?_
    dsimp only
    split
    · exact leaves_refused _
    · split
      · exact leaves_refused _
      · refine leaves_auxFree (leaves_writesD hu rfl ?_)
        exact .trans (k := { u.cog with pix := u.cog.pix.step, mix := { u.cog.mix with sel := _ } })
          (.of_same rfl rfl rfl rfl rfl rfl) (.setFlags _ _)

theorem leaves_mixOp {f : DualP} {terms : Mix → MixTerms} (he : exec i s = s.mixOp f terms) :
    Out.leaves (exec i s) s stores (s.onlyD f.cond f.d) pushes wz wc :=
  he ▸ leaves_withOperands fun _ _ hu =>
    leaves_writesD hu (s.onlyD_self _ _ _)

theorem leaves_locate {f : DualP} {shift : Nat} (he : exec i s = s.locate f shift) :
    Out.leaves (exec i s) s stores (s.onlyD f.cond f.d) pushes wz wc :=
  he ▸ leaves_withOperands fun _ _ hu => leaves_finishD hu (.refl _ _ _ _ _) (s.onlyD_self _ _ _) _ 0

theorem leaves_locbase {f : DualP} : Out.leaves (exec (.locbase f) s) s stores (s.onlyD f.cond f.d) pushes wz wc :=
  exec_locbase s f ▸ leaves_withOperands fun _ _ hu =>
    leaves_finishD hu (.refl _ _ _ _ _) (s.onlyD_self _ _ _) _ 0

theorem leaves_locinst {f : Loc} : Out.leaves (exec (.locinst f) s) s stores (s.onlyD f.cond f.d) pushes wz wc :=
  exec_locinst s f ▸ leaves_withOperands fun _ _ hu => leaves_finishD hu (.refl _ _ _ _ _) rfl _ 0

theorem leaves_waitcnt {f : DualP} : Out.leaves (exec (.waitcnt f) s) s stores (s.onlyD f.cond f.d) pushes wz wc := by
  refine exec_waitcnt s f ▸ leaves_withOperands fun u _ hu => ?_
  split_ifs
  · exact leaves_finishD hu (.refl _ _ _ _ _) (s.onlyD_self _ _ _) _ 0
  · exact leaves_hold hu _ _

theorem leaves_waitcntWc {f : DualP} : Out.leaves (exec (.waitcntWc f) s) s stores (s.onlyD f.cond f.d) pushes false true := by
  refine exec_waitcntWc s f ▸ leaves_withOperands fun u _ hu => ?_
  split_ifs
  · exact leaves_finishD hu (.setFlags _ _) (s.onlyD_self _ _ _) _ 0
  · exact leaves_hold hu _ _

/-! ### Jumps -/

theorem leaves_jumpBig {f : Big} {rel delayed : Bool} (he : exec i s = s.jumpBig f rel delayed) :
    Out.leaves (exec i s) s stores writes pushes wz wc :=
  he ▸ leaves_conditional fun _ _ hu => leaves_noAugs _ <| leaves_take hu (.refl _ _ _ _ _) _ _ _

theorem leaves_jumpReg {f : SingleZC} {delayed : Bool} (he : exec i s = s.jumpReg f delayed) :
    Out.leaves (exec i s) s stores writes pushes f.wz f.wc :=
  he ▸ leaves_withOperands fun _ _ hu => leaves_take hu (.setFlags _ _) _ _ _

theorem leaves_jumpSwap {f : Dual} {delayed : Bool} (he : exec i s = s.jumpSwap f delayed) :
    Out.leaves (exec i s) s stores (s.onlyD f.cond f.d) pushes f.wz f.wc := by
  refine he ▸ leaves_withOperands fun u _ hu => ?_
  split_ifs
  · exact leaves_refused _
  · exact leaves_take hu (.trans (.setFlags _ _) (.writeReg (s.onlyD_self _ _ _) _)) _ _ _

theorem leaves_countJump {f : DualP} {count : Word → Word} {test : Word → Bool} {delayed : Bool}
    (he : exec i s = s.countJump f count test delayed) :
    Out.leaves (exec i s) s stores (s.onlyD f.cond f.d) pushes wz wc := by
  refine he ▸ leaves_withOperands fun u _ hu => ?_
  dsimp only
  split_ifs
  · exact leaves_refused _
  · exact leaves_take hu (.writeReg (s.onlyD_self _ _ _) _) _ _ _
  · exact leaves_fallThrough hu (.writeReg (s.onlyD_self _ _ _) _) _

theorem leaves_testJump {f : DualP} {test : Word → Bool} {delayed : Bool} (he : exec i s = s.testJump f test delayed) :
    Out.leaves (exec i s) s stores writes pushes wz wc := by
  refine he ▸ leaves_withOperands fun u _ hu => ?_
  split_ifs
  · exact leaves_take hu (.refl _ _ _ _ _) _ _ _
  · exact leaves_fallThrough hu (.refl _ _ _ _ _) _

theorem leaves_pinJump {f : DualL} {level delayed : Bool} (he : exec i s = s.pinJump f level delayed) :
    Out.leaves (exec i s) s stores writes pushes wz wc := by
  refine he ▸ leaves_withOperands fun u _ hu => ?_
  split_ifs
  · exact leaves_take hu (.refl _ _ _ _ _) _ _ _
  · exact leaves_fallThrough hu (.refl _ _ _ _ _) _

theorem leaves_jmplist {f : DualP} : Out.leaves (exec (.jmplist f) s) s stores writes pushes wz wc :=
  exec_jmplist s f ▸ leaves_withOperands fun _ _ hu => leaves_branch hu (.refl _ _ _ _ _) _ _

/-! ### The task stack, calls and returns -/

theorem leaves_pushTask (h : s.framed u stores writes pushes wz wc) (v : Word) {go : State → Out}
    (hg : ∀ x, s.framed x stores writes pushes wz wc → Out.leaves (go x) s stores writes pushes wz wc) :
    Out.leaves (u.pushTask v go) s stores writes pushes wz wc := by
  unfold State.pushTask
  dsimp only
  split_ifs
  · exact hg _ (h.setCog (.setTask_same rfl rfl))
  · exact leaves_fault _

theorem leaves_popTask (h : s.framed u stores writes pushes wz wc) {go : Word → State → Out}
    (hg : ∀ v x, s.framed x stores writes pushes wz wc → Out.leaves (go v x) s stores writes pushes wz wc) :
    Out.leaves (u.popTask go) s stores writes pushes wz wc := by
  unfold State.popTask
  dsimp only
  split
  · exact leaves_fault _
  · exact hg _ _ (h.setCog (.setTask_same rfl rfl))

/-- Where a call saves, in a cog with these pointers. -/
def CallStack.savesIn (k : CallStack) (c : Cog) (stores : Nat → Prop) (pushes : Byte → Prop) : Prop :=
  let long (p : Nat) : Prop := ∀ b, 0x00E00 ≤ p / 4 * 4 ∧ p / 4 * 4 ≤ b ∧ b < p / 4 * 4 + 4 → stores b
  match k with
  | .task => True
  | .hubA => long c.ptra.toNat
  | .hubB => long c.ptrb.toNat
  | .auxX => pushes c.ptrx
  | .auxY => pushes (~~~c.ptry)

theorem leaves_pushOn (h : s.framed u stores writes pushes wz wc) (o : Operands) {k : CallStack} (v : Word) {go : State → Out}
    (hk : k.savesIn u.cog stores pushes)
    (hg : ∀ x, s.framed x stores writes pushes wz wc → Out.leaves (go x) s stores writes pushes wz wc) :
    Out.leaves (u.pushOn o k v go) s stores writes pushes wz wc := by
  cases k with
  | task => exact leaves_pushTask h v hg
  | hubA =>
    rw [State.pushOn]
    refine leaves_atHub h o ?_
    exact hg _ ((h.store (u.hub.stored_writeLong u.cog.ptra v) hk).setCog (by exact .of_same rfl rfl rfl rfl rfl rfl))
  | hubB =>
    rw [State.pushOn]
    refine leaves_atHub h o ?_
    exact hg _ ((h.store (u.hub.stored_writeLong u.cog.ptrb v) hk).setCog (by exact .of_same rfl rfl rfl rfl rfl rfl))
  | auxX => exact leaves_auxFree <| hg _ (h.setCog (by exact .trans (.setAux hk v) (.of_same rfl rfl rfl rfl rfl rfl)))
  | auxY => exact leaves_auxFree <| hg _ (h.setCog (by exact .trans (.setAux hk v) (.of_same rfl rfl rfl rfl rfl rfl)))

theorem leaves_popFrom (h : s.framed u stores writes pushes wz wc) (o : Operands) (k : CallStack) {go : Word → State → Out}
    (hg : ∀ v x, s.framed x stores writes pushes wz wc → Out.leaves (go v x) s stores writes pushes wz wc) :
    Out.leaves (u.popFrom o k go) s stores writes pushes wz wc := by
  cases k with
  | task => exact leaves_popTask h hg
  | hubA =>
    rw [State.popFrom]
    refine leaves_atHub h o ?_
    exact hg _ _ (h.setCog (by exact .of_same rfl rfl rfl rfl rfl rfl))
  | hubB =>
    rw [State.popFrom]
    refine leaves_atHub h o ?_
    exact hg _ _ (h.setCog (by exact .of_same rfl rfl rfl rfl rfl rfl))
  | auxX => exact leaves_auxFree <| hg _ _ (h.setCog (by exact .of_same rfl rfl rfl rfl rfl rfl))
  | auxY => exact leaves_auxFree <| hg _ _ (h.setCog (by exact .of_same rfl rfl rfl rfl rfl rfl))

/-- Decoding does not move the stack. -/
theorem CallStack.savesIn_cogNow {k : CallStack} (hk : k.savesIn s.cog stores pushes) {cond : BitVec 4} {du : DUse} {su : SUse}
    (hu : u.cog = s.cogNow cond du su) : k.savesIn u.cog stores pushes := by
  obtain ⟨ha, hb, hx, hy⟩ := s.cogNow_pointers cond du su
  unfold CallStack.savesIn
  rw [hu, ha, hb, hx, hy]
  exact hk

theorem leaves_callBig {f : Big} {k : CallStack} {rel delayed : Bool} (he : exec i s = s.callBig f k rel delayed)
    (hk : k.savesIn s.cog stores pushes) : Out.leaves (exec i s) s stores writes pushes wz wc :=
  he ▸ leaves_conditional fun _ hc hu => leaves_noAugs _ <|
    leaves_pushOn hu _ _ (CallStack.savesIn_cogNow hk hc) fun _ hx => leaves_take hx (.refl _ _ _ _ _) _ _ _

theorem leaves_callReg {f : SingleZC} {k : CallStack} {delayed : Bool} (he : exec i s = s.callReg f k delayed)
    (hk : k.savesIn s.cog stores pushes) : Out.leaves (exec i s) s stores writes pushes f.wz f.wc :=
  he ▸ leaves_withOperands fun _ hc hu =>
    leaves_pushOn hu _ _ (CallStack.savesIn_cogNow hk hc) fun _ hx => leaves_take hx (.setFlags _ _) _ _ _

theorem leaves_ret {f : Zero0ZC} {k : CallStack} {delayed : Bool} (he : exec i s = s.ret f k delayed) :
    Out.leaves (exec i s) s stores writes pushes f.wz f.wc :=
  he ▸ leaves_conditional fun _ _ hu => leaves_popFrom hu _ _ fun _ _ hx => leaves_take hx (.setFlags _ _) _ _ _

theorem leaves_push {f : SingleL} : Out.leaves (exec (.push f) s) s stores writes pushes wz wc :=
  exec_push s f ▸ leaves_withOperands fun _ _ hu => leaves_pushTask hu _ fun _ hx => leaves_finish hx (.refl _ _ _ _ _) 0

theorem leaves_pop {f : SingleZC} : Out.leaves (exec (.pop f) s) s stores (s.onlyD f.cond f.d) pushes f.wz f.wc :=
  exec_pop s f ▸ leaves_withOperands fun _ _ hu => leaves_popTask hu fun _ _ hx => leaves_putResult hx rfl _ 0

/-! ### Hub memory and AUX -/

theorem Cog.framed.reload (c : Cog) (m : Memory) (a : HubAddr) : c.framed (c.reload m a) writes pushes wz wc :=
  .of_same rfl rfl rfl rfl rfl rfl

theorem leaves_hubRead {f : Dual} {n : Nat} {read : Memory → HubAddr → Word} (he : exec i s = s.hubRead f n read) :
    Out.leaves (exec i s) s stores (s.onlyD f.cond f.d) pushes f.wz f.wc :=
  he ▸ leaves_withOperands fun _ _ hu => leaves_noAugs _ <| leaves_atHub hu _ <|
    leaves_finishD hu (.trans (.hubUse _ _ _ _) (.setFlags _ _)) (s.onlyD_self _ _ _) _ 2

theorem leaves_hubReadC {f : Dual} {n : Nat} {pick : Octet Word → HubAddr → Word} (he : exec i s = s.hubReadC f n pick) :
    Out.leaves (exec i s) s stores (s.onlyD f.cond f.d) pushes f.wz f.wc := by
  refine he ▸ leaves_withOperands fun u _ hu => leaves_noAugs _ ?_
  dsimp only
  split_ifs
  · exact leaves_finishD hu (.trans (.hubUse _ _ _ _) (.setFlags _ _)) (s.onlyD_self _ _ _) _ 0
  · exact leaves_atHub hu _ <| leaves_finishD hu (.trans (.hubUse _ _ _ _) (.trans (.reload _ _ _) (.setFlags _ _)))
      (s.onlyD_self _ _ _) _ 2

theorem leaves_auxLoad {f : Dual} {way : Byte → Byte} (he : exec i s = s.auxLoad f way) :
    Out.leaves (exec i s) s stores (s.onlyD f.cond f.d) pushes f.wz f.wc :=
  he ▸ leaves_withOperands fun _ _ hu => leaves_noAugs _ <| leaves_auxFree <|
    leaves_finishD hu (.trans (.auxUse _ _ _) (.setFlags _ _)) (s.onlyD_self _ _ _) _ _

theorem leaves_hubWrite {f : DualL} {n : Nat} {write : Hub → HubAddr → Word → Hub} {a : HubAddr}
    (he : exec i s = s.hubWrite f n write)
    (hw : ∀ (h : Hub) (a : HubAddr) (v : Word), h.Stored (write h a v) (a.toNat / n * n) n v)
    (ha : ((s.cogNow f.cond (dl f.l f.d) (hubS f.i f.s)).hubUse f.i (s.opsNow f.cond (dl f.l f.d) (hubS f.i f.s)).sv n).addr
      = a) :
    Out.leaves (exec i s) s (fun b => 0x00E00 ≤ b ∧ a.toNat / n * n ≤ b ∧ b < a.toNat / n * n + n) writes pushes wz wc := by
  refine he ▸ leaves_withOperands fun u hc hu => leaves_noAugs _ <| leaves_atHub hu _ ?_
  refine leaves_finish (hu.store (hw u.hub _ _) fun b hb => ?_) (.hubUse _ _ _ _) 0
  rw [hc, ha] at hb
  obtain ⟨hrom, hlo, hhi⟩ := hb
  exact ⟨hrom.trans hlo, hlo, hhi⟩

theorem leaves_auxStore {f : DualL} {way : Byte → Byte} {a : Byte} (he : exec i s = s.auxStore f way)
    (ha : way ((s.cogNow f.cond (dl f.l f.d) (auxS f.i f.s)).auxUse f.i (s.opsNow f.cond (dl f.l f.d) (auxS f.i f.s)).sv).addr
      = a) : Out.leaves (exec i s) s stores writes (· = a) wz wc := by
  refine he ▸ leaves_withOperands fun u hc hu => leaves_noAugs _ <| leaves_auxFree <| leaves_finish hu ?_ _
  exact .trans (.auxUse _ _ _) (.setAux (by rw [hc]; exact ha) _)

/-- The shape of the wide instructions; the pointer moves before memory is used. -/
theorem leaves_wideOp {f : SingleL} {body : HubUse → Operands → State → Out} (he : exec i s = s.wideOp f body)
    (hg : ∀ x, s.framed x stores writes pushes wz wc →
      Out.leaves (body (x.cog.hubUse f.l (s.opsNow f.cond (hubD f.l f.d) (.raw 0)).dv 32)
        (s.opsNow f.cond (hubD f.l f.d) (.raw 0)) x) s stores writes pushes wz wc) :
    Out.leaves (exec i s) s stores writes pushes wz wc :=
  he ▸ leaves_withOperands fun _ _ hu => leaves_noAugd _ (hg _ hu)

theorem leaves_rdwide {f : SingleL} : Out.leaves (exec (.rdwide f) s) s stores writes pushes wz wc :=
  leaves_wideOp (exec_rdwide s f) fun _ hx => leaves_atHub hx _ <|
    leaves_finish hx (.trans (.hubUse _ _ _ _) (.reload _ _ _)) 0

theorem leaves_rdwidec {f : SingleL} : Out.leaves (exec (.rdwidec f) s) s stores writes pushes wz wc := by
  refine leaves_wideOp (exec_rdwidec s f) fun x hx => ?_
  split_ifs
  · exact leaves_finish hx (.hubUse _ _ _ _) 0
  · exact leaves_atHub hx _ <| leaves_finish hx (.trans (.hubUse _ _ _ _) (.reload _ _ _)) 0

theorem leaves_wrwide {f : SingleL} :
    let p := ((s.cogNow f.cond (hubD f.l f.d) (.raw 0)).hubUse f.l (s.opsNow f.cond (hubD f.l f.d) (.raw 0)).dv 32).addr.toNat
    Out.leaves (exec (.wrwide f) s) s (fun b => 0x00E00 ≤ b ∧ p / 32 * 32 ≤ b ∧ b < p / 32 * 32 + 32) writes pushes wz wc := by
  intro p
  refine exec_wrwide s f ▸ leaves_withOperands fun u hc hu => leaves_noAugd _ <| leaves_atHub hu _ ?_
  refine leaves_same (hu.withHub (fun b hb => ?_) rfl rfl rfl rfl) (.hubUse _ _ _ _)
  rw [Hub.writeWide_mem]
  refine Memory.byte_setWide_others _ _ _ ?_
  rw [hc]
  omega

theorem leaves_nop (he : s.enters) : Out.leaves (exec .nop s) s stores writes pushes wz wc :=
  nop_passesOn he ▸ leaves_next ((State.framed.opened s _ _ _).ends (.refl _ _ _ _ _) 0)

end

end Sys2Proof.Machine
end

section
/-!
PROOFS. The frame of the unit, memory and control instructions, form by form (10_state.md, section 9).
-/

set_option Elab.async false

namespace Sys2Proof.Machine

open Sys2Proof

/-- The bytes of a saved long are those of the aligned long outside the ROM. -/
theorem longSaved {p b : Nat} (h : 0x00E00 ≤ p / 4 * 4 ∧ p / 4 * 4 ≤ b ∧ b < p / 4 * 4 + 4) :
    0x00E00 ≤ b ∧ p / 4 * 4 ≤ b ∧ b < p / 4 * 4 + 4 := by omega

/-- Settles O60, form by form from the frame of its shape. -/
theorem unitAndControlInstructionsFrame : Obligations.UnitAndControlInstructionsFrame := by
  intro s t kept onlyD storesHub storesAux
  have k {i : Instr} {writes : RegAddr → Prop} {wz wc : Bool} (h : Out.leaves (exec i s) s nowhere writes nowhere wz wc) :
      kept i writes wz wc := h t
  have hub {i : Instr} {p n : Nat} {wz wc : Bool}
      (h : Out.leaves (exec i s) s (fun b => 0x00E00 ≤ b ∧ p / n * n ≤ b ∧ b < p / n * n + n) nowhere nowhere wz wc) :
      storesHub i p n wz wc := h t
  have aux {i : Instr} {p : Byte} {wz wc : Bool} (h : Out.leaves (exec i s) s nowhere nowhere (· = p) wz wc) :
      storesAux i p wz wc := h t
  refine ⟨?_, ?_, ?_, ?_, ?_, ?_, ?_, ?_, ?_, ?_, ?_, ?_, ?_, ?_, ?_, ?_, ?_, ?_, ?_, ?_, ?_, ?_, ?_, ?_, ?_⟩
  · intro f
    simp only [List.forall_mem_cons]
    exact ⟨k (leaves_configL (exec_setmap s f)), k (leaves_configL (exec_setxch s f)),
      k (leaves_configL (exec_settask s f)), k (leaves_configL (exec_setrace s f)),
      k (leaves_shiftAcc (exec_saracca s f)), k (leaves_shiftAcc (exec_saraccb s f)),
      k (leaves_shiftAcc (exec_saraccs s f)), k (leaves_configL (exec_setptra s f)),
      k (leaves_configL (exec_setptrb s f)), k (leaves_configL (exec_addptra s f)),
      k (leaves_configL (exec_addptrb s f)), k (leaves_configL (exec_subptra s f)),
      k (leaves_configL (exec_subptrb s f)), k (leaves_moveWindow (exec_setwide s f)),
      k (leaves_moveWindow (exec_setwidz s f)), k (leaves_configL (exec_setptrx s f)),
      k (leaves_writePtry (exec_setptry s f)), k (leaves_configL (exec_addptrx s f)),
      k (leaves_writePtry (exec_addptry s f)), k (leaves_configL (exec_subptrx s f)),
      k (leaves_writePtry (exec_subptry s f)), k leaves_passcnt, k leaves_wait, k (leaves_start1 (exec_div64d s f)),
      k (leaves_start1 (exec_sqrt32 s f)), k (leaves_start1 (exec_qlog s f)), k (leaves_start1 (exec_qexp s f)),
      k (leaves_start1 (exec_setqi s f)), k (leaves_start1 (exec_setqz s f)), k (leaves_configL (exec_cfgdacs s f)),
      k (leaves_configL (exec_cfgdac0 s f)), k (leaves_configL (exec_cfgdac1 s f)),
      k (leaves_configL (exec_cfgdac2 s f)), k (leaves_configL (exec_cfgdac3 s f)),
      k (leaves_configL (exec_setctra s f)), k (leaves_configL (exec_setwava s f)),
      k (leaves_configL (exec_setfrqa s f)), k (leaves_configL (exec_setphsa s f)),
      k (leaves_configL (exec_addphsa s f)), k (leaves_configL (exec_subphsa s f)),
      k (leaves_configL (exec_setvid s f)), k (leaves_configL (exec_setvidy s f)),
      k (leaves_configL (exec_setctrb s f)), k (leaves_configL (exec_setwavb s f)),
      k (leaves_configL (exec_setfrqb s f)), k (leaves_configL (exec_setphsb s f)),
      k (leaves_configL (exec_addphsb s f)), k (leaves_configL (exec_subphsb s f)),
      k (leaves_configL (exec_setvidi s f)), k (leaves_configL (exec_setvidq s f)),
      k (leaves_configL (exec_setpix s f)), k (leaves_configL (exec_setpixz s f)),
      k (leaves_configL (exec_setpixu s f)), k (leaves_configL (exec_setpixv s f)),
      k (leaves_configL (exec_setpixa s f)), k (leaves_configL (exec_setpixr s f)),
      k (leaves_configL (exec_setpixg s f)), k (leaves_configL (exec_setpixb s f)),
      k (leaves_configL (exec_setpora s f)), k (leaves_configL (exec_setporb s f)),
      k (leaves_configL (exec_setporc s f)), k (leaves_configL (exec_setpord s f)), k leaves_push,
      k (leaves_configL (exec_setdacs s f)), k (leaves_setDac (exec_setdac0 s f)),
      k (leaves_setDac (exec_setdac1 s f)), k (leaves_setDac (exec_setdac2 s f)), k (leaves_setDac (exec_setdac3 s f)),
      List.forall_mem_nil _⟩
  · intro f
    simp only [List.forall_mem_cons]
    exact ⟨k (leaves_configL (exec_offp s f) fun _ _ => .putPin _ _ _ _),
      k (leaves_configL (exec_notp s f) fun _ _ => .putPin _ _ _ _),
      k (leaves_configL (exec_clrp s f) fun _ _ => .putPin _ _ _ _),
      k (leaves_configL (exec_setp s f) fun _ _ => .putPin _ _ _ _),
      k (leaves_configL (exec_setpc s f) fun _ _ => .putPin _ _ _ _),
      k (leaves_configL (exec_setpnc s f) fun _ _ => .putPin _ _ _ _),
      k (leaves_configL (exec_setpz s f) fun _ _ => .putPin _ _ _ _),
      k (leaves_configL (exec_setpnz s f) fun _ _ => .putPin _ _ _ _), List.forall_mem_nil _⟩
  · exact fun n f => k leaves_repd
  · intro n16 n6 n23 f
    simp only [List.forall_mem_cons]
    exact ⟨k leaves_repdInf, k (leaves_config0 (exec_capctra s f)), k (leaves_config0 (exec_capctrb s f)),
      k (leaves_config0 (exec_capctrs s f)), k (leaves_config0 (exec_setpixw s f)),
      k (leaves_config0 (exec_clracca s f)), k (leaves_config0 (exec_clraccb s f)),
      k (leaves_config0 (exec_clraccs s f)), k (leaves_syncCtr (exec_synctra s f)),
      k (leaves_syncCtr (exec_synctrb s f)), k (leaves_config0 (exec_dcachex s f)), k leaves_icachex,
      k (leaves_config0 (exec_icachep s f)), k (leaves_config0 (exec_icachen s f)), k leaves_reps, k leaves_augs,
      k leaves_augd, List.forall_mem_nil _⟩
  · exact fun he => k (leaves_nop he)
  · intro n2 f
    simp only [List.forall_mem_cons]
    exact ⟨k (leaves_startL (exec_frac s f)), k (leaves_configLS (exec_setacca s f)),
      k (leaves_configLS (exec_setaccb s f)), k (leaves_configLS (exec_maca s f)), k (leaves_configLS (exec_macb s f)),
      k (leaves_startL (exec_mul32 s f)), k (leaves_startL (exec_mul32u s f)), k (leaves_startL (exec_div32 s f)),
      k (leaves_startL (exec_div32u s f)), k (leaves_startL (exec_div64 s f)), k (leaves_startL (exec_div64u s f)),
      k (leaves_startL (exec_sqrt64 s f)), k (leaves_startL (exec_qsincos s f)), k (leaves_startL (exec_qarctan s f)),
      k (leaves_startL (exec_qrotate s f)), k (leaves_setSer (exec_setsera s f)), k (leaves_setSer (exec_setserb s f)),
      k (leaves_configLS (exec_setctrs s f)), k (leaves_configLS (exec_setwavs s f)),
      k (leaves_configLS (exec_setfrqs s f)), k (leaves_configLS (exec_setphss s f)),
      k (leaves_configLS (exec_addphss s f)), k (leaves_configLS (exec_subphss s f)), k leaves_cfgpins,
      k (leaves_configLS (exec_setxfr s f)), k (leaves_configLS (exec_setmix s f)), k (leaves_pinJump (exec_jp s f)),
      k (leaves_pinJump (exec_jpd s f)), k (leaves_pinJump (exec_jnp s f)), k (leaves_pinJump (exec_jnpd s f)),
      List.forall_mem_nil _⟩
  · exact fun n f g => ⟨k leaves_waitvid, k leaves_waitvidImm⟩
  · intro f
    simp only [List.forall_mem_cons]
    exact ⟨k (leaves_setInds (exec_fixinda s f)), k (leaves_setInds (exec_fixindb s f)),
      k (leaves_setInds (exec_fixinds s f)), k (leaves_setInds (exec_setindaAbs s f)),
      k (leaves_setInds (exec_setindaRel s f)), k (leaves_setInds (exec_setindbAbs s f)),
      k (leaves_setInds (exec_setindbRel s f)), k (leaves_setInds (exec_setindsAbsAbs s f)),
      k (leaves_setInds (exec_setindsAbsRel s f)), k (leaves_setInds (exec_setindsRelAbs s f)),
      k (leaves_setInds (exec_setindsRelRel s f)), List.forall_mem_nil _⟩
  · intro f
    simp only [List.forall_mem_cons]
    exact ⟨k leaves_cogid, k (leaves_readInto (exec_taskid s f)), k (leaves_readCount (exec_getcnt s f)),
      k (leaves_readCount (exec_getcntx s f)), k (leaves_readAcc (exec_getacal s f)),
      k (leaves_readAcc (exec_getacah s f)), k (leaves_readAcc (exec_getacbl s f)),
      k (leaves_readAcc (exec_getacbh s f)), k (leaves_readInto (exec_getptra s f)),
      k (leaves_readInto (exec_getptrb s f)), k (leaves_readAuxPtr (exec_getptrx s f)),
      k (leaves_readAuxPtr (exec_getptry s f)), k (leaves_serIn (exec_serina s f)), k (leaves_serIn (exec_serinb s f)),
      k (leaves_readResult (exec_getmull s f)), k (leaves_readResult (exec_getmulh s f)),
      k (leaves_readResult (exec_getdivq s f)), k (leaves_readResult (exec_getdivr s f)),
      k (leaves_readResult (exec_getsqrt s f)), k (leaves_readResult (exec_getqx s f)),
      k (leaves_readResult (exec_getqy s f)), k (leaves_readResult (exec_getqz s f)),
      k (leaves_readInto (exec_getphsa s f)), k (leaves_readInto (exec_getphza s f)),
      k (leaves_readInto (exec_getcosa s f)), k (leaves_readInto (exec_getsina s f)),
      k (leaves_readInto (exec_getphsb s f)), k (leaves_readInto (exec_getphzb s f)),
      k (leaves_readInto (exec_getcosb s f)), k (leaves_readInto (exec_getsinb s f)), k leaves_subcnt, k leaves_getpix,
      k leaves_pop, k (leaves_hubRead (exec_popa s f)), k (leaves_hubRead (exec_popb s f)),
      k (leaves_auxLoad (exec_popx s f)), k (leaves_auxLoad (exec_popy s f)), List.forall_mem_nil _⟩
  · intro f
    simp only [List.forall_mem_cons]
    exact ⟨k (leaves_hubRead (exec_rdbyte s f)), k (leaves_hubRead (exec_rdword s f)),
      k (leaves_hubRead (exec_rdlong s f)), k (leaves_hubReadC (exec_rdbytec s f)),
      k (leaves_hubReadC (exec_rdwordc s f)), k (leaves_hubReadC (exec_rdlongc s f)),
      k (leaves_auxLoad (exec_rdaux s f)), k (leaves_auxLoad (exec_rdauxr s f)), k (leaves_jumpSwap (exec_jmpsw s f)),
      k (leaves_jumpSwap (exec_jmpswd s f)), List.forall_mem_nil _⟩
  · exact ⟨k (leaves_jumpSwap (exec_switch s)), k (leaves_jumpSwap (exec_switchd s))⟩
  · intro f
    simp only [List.forall_mem_cons]
    exact ⟨k (leaves_mixOp (exec_addpix s f)), k (leaves_mixOp (exec_mulpix s f)), k (leaves_mixOp (exec_blnpix s f)),
      k (leaves_mixOp (exec_mixpix s f)), k (leaves_countJump (exec_ijz s f)), k (leaves_countJump (exec_ijzd s f)),
      k (leaves_countJump (exec_ijnz s f)), k (leaves_countJump (exec_ijnzd s f)), k (leaves_countJump (exec_djz s f)),
      k (leaves_countJump (exec_djzd s f)), k (leaves_countJump (exec_djnz s f)),
      k (leaves_countJump (exec_djnzd s f)), k (leaves_testJump (exec_jz s f)), k (leaves_testJump (exec_jzd s f)),
      k (leaves_testJump (exec_jnz s f)), k (leaves_testJump (exec_jnzd s f)), k leaves_locbase,
      k (leaves_locate (exec_locbyte s f)), k (leaves_locate (exec_locword s f)), k (leaves_locate (exec_loclong s f)),
      k leaves_jmplist, List.forall_mem_nil _⟩
  · exact fun f => k leaves_locinst
  · exact fun f => ⟨k leaves_waitcnt, k leaves_waitcntWc⟩
  · exact fun n f => ⟨k (leaves_waitPort (exec_waitpeq s n f)), k (leaves_waitPort (exec_waitpne s n f))⟩
  · intro f
    simp only [List.forall_mem_cons]
    exact ⟨k (leaves_waitEdge (exec_waitpx s f)), k (leaves_waitEdge (exec_waitpr s f)),
      k (leaves_waitEdge (exec_waitpf s f)), k leaves_cmpcnt, k (leaves_serOut (exec_serouta s f)),
      k (leaves_serOut (exec_seroutb s f)), List.forall_mem_nil _⟩
  · intro f
    simp only [List.forall_mem_cons]
    exact ⟨k (leaves_readPin (exec_getp s f)), k (leaves_readPin (exec_getnp s f)), k leaves_setzc,
      List.forall_mem_nil _⟩
  · intro f
    simp only [List.forall_mem_cons]
    exact ⟨k (leaves_ret (exec_reta s f)), k (leaves_ret (exec_retad s f)), k (leaves_ret (exec_retb s f)),
      k (leaves_ret (exec_retbd s f)), k (leaves_ret (exec_retx s f)), k (leaves_ret (exec_retxd s f)),
      k (leaves_ret (exec_rety s f)), k (leaves_ret (exec_retyd s f)), k (leaves_ret (exec_ret s f)),
      k (leaves_ret (exec_retd s f)), k (leaves_pollCtr (exec_polctra s f)), k (leaves_pollCtr (exec_polctrb s f)),
      k leaves_polvid, k (leaves_checkAuxPtr (exec_chkptrx s f)), k (leaves_checkAuxPtr (exec_chkptry s f)),
      List.forall_mem_nil _⟩
  · intro f
    simp only [List.forall_mem_cons]
    exact ⟨k (leaves_jumpBig (exec_jmpAbs s f)), k (leaves_jumpBig (exec_jmpRel s f)),
      k (leaves_jumpBig (exec_jmpdAbs s f)), k (leaves_jumpBig (exec_jmpdRel s f)),
      k (leaves_callBig (exec_callAbs s f) trivial), k (leaves_callBig (exec_callRel s f) trivial),
      k (leaves_callBig (exec_calldAbs s f) trivial), k (leaves_callBig (exec_calldRel s f) trivial),
      k (leaves_locPtr (exec_locptraAbs s f)), k (leaves_locPtr (exec_locptraRel s f)),
      k (leaves_locPtr (exec_locptrbAbs s f)), k (leaves_locPtr (exec_locptrbRel s f)), List.forall_mem_nil _⟩
  · intro f
    simp only [List.forall_mem_cons]
    exact ⟨k (leaves_jumpReg (exec_jmpReg s f)), k (leaves_jumpReg (exec_jmpdReg s f)),
      k (leaves_callReg (exec_callReg s f) trivial), k (leaves_callReg (exec_calldReg s f) trivial),
      List.forall_mem_nil _⟩
  · intro f
    simp only [List.forall_mem_cons]
    refine ⟨?_, ?_, ?_, ?_⟩
    · exact ⟨hub (leaves_callBig (exec_callaAbs s f) fun _ => longSaved),
        hub (leaves_callBig (exec_callaRel s f) fun _ => longSaved),
        hub (leaves_callBig (exec_calladAbs s f) fun _ => longSaved),
        hub (leaves_callBig (exec_calladRel s f) fun _ => longSaved), List.forall_mem_nil _⟩
    · exact ⟨hub (leaves_callBig (exec_callbAbs s f) fun _ => longSaved),
        hub (leaves_callBig (exec_callbRel s f) fun _ => longSaved),
        hub (leaves_callBig (exec_callbdAbs s f) fun _ => longSaved),
        hub (leaves_callBig (exec_callbdRel s f) fun _ => longSaved), List.forall_mem_nil _⟩
    · exact ⟨aux (leaves_callBig (exec_callxAbs s f) rfl), aux (leaves_callBig (exec_callxRel s f) rfl),
        aux (leaves_callBig (exec_callxdAbs s f) rfl), aux (leaves_callBig (exec_callxdRel s f) rfl),
        List.forall_mem_nil _⟩
    · exact ⟨aux (leaves_callBig (exec_callyAbs s f) (not_byte _)),
        aux (leaves_callBig (exec_callyRel s f) (not_byte _)), aux (leaves_callBig (exec_callydAbs s f) (not_byte _)),
        aux (leaves_callBig (exec_callydRel s f) (not_byte _)), List.forall_mem_nil _⟩
  · intro f
    simp only [List.forall_mem_cons]
    refine ⟨?_, ?_, ?_, ?_⟩
    · exact ⟨hub (leaves_callReg (exec_callaReg s f) fun _ => longSaved),
        hub (leaves_callReg (exec_calladReg s f) fun _ => longSaved), List.forall_mem_nil _⟩
    · exact ⟨hub (leaves_callReg (exec_callbReg s f) fun _ => longSaved),
        hub (leaves_callReg (exec_callbdReg s f) fun _ => longSaved), List.forall_mem_nil _⟩
    · exact ⟨aux (leaves_callReg (exec_callxReg s f) rfl), aux (leaves_callReg (exec_callxdReg s f) rfl),
        List.forall_mem_nil _⟩
    · exact ⟨aux (leaves_callReg (exec_callyReg s f) (not_byte _)),
        aux (leaves_callReg (exec_callydReg s f) (not_byte _)), List.forall_mem_nil _⟩
  · exact fun f => ⟨hub (leaves_hubWrite (exec_pusha s f) Hub.stored_writeLong rfl),
      hub (leaves_hubWrite (exec_pushb s f) Hub.stored_writeLong rfl), aux (leaves_auxStore (exec_pushx s f) rfl),
      aux (leaves_auxStore (exec_pushy s f) (not_byte _))⟩
  · exact fun f => ⟨hub (leaves_hubWrite (exec_wrbyte s f) Hub.stored_writeByte rfl),
      hub (leaves_hubWrite (exec_wrword s f) Hub.stored_writeWord rfl), hub (leaves_hubWrite (exec_wrlong s f) Hub.stored_writeLong rfl),
      aux (leaves_auxStore (exec_wraux s f) rfl), aux (leaves_auxStore (exec_wrauxr s f) (not_byte _))⟩
  · exact fun f => ⟨k leaves_rdwide, k leaves_rdwidec, hub leaves_wrwide⟩

end Sys2Proof.Machine
end
